-- ==== Sys2Proof/Word.lean ====
section
/-! DEFINITION. The word types of the V2 ISA and the names its instructions select by: the eight registers and the sixteen
condition codes. `u(v)` of 00_scope.md R8 is `BitVec.toNat`, `s(v)` is `BitVec.toInt`. -/

namespace Sys2Proof

/-- A data word: a register, a MEM word, an immediate, the program counter (00_scope.md R6: XLEN = 16, IMMLEN = 16). -/
abbrev Word := BitVec 16

/-- An instruction word (30_encoding.md R53: every instruction is 32 bits long). -/
abbrev InstrWord := BitVec 32

/-- One byte of an instruction word: the opcode, CONST, X or Y (30_encoding.md R53, R65, R66). -/
abbrev Byte := BitVec 8

/-- The eight general registers (10_state.md R12). There is no register numbered 8 or more (R14). -/
inductive Reg where
  | x0 | x1 | x2 | x3 | x4 | x5 | x6 | x7
deriving DecidableEq, Repr

/-- The sixteen values of the 4-bit CONDITION field (30_encoding.md R67), by the mnemonics of the branch condition table
(43_compare_branch.md R133 to R147). `reservedF` is code 0xF, which the table does not list (R148). -/
inductive Cond where
  | b | beq | bne | blt | ble | bgt | bge | bcs | bcc | bmi | bpl | bvs | bvc | bhi | bls
  | reservedF
deriving DecidableEq, Repr

end Sys2Proof
end

