-- ==== Sys2Proof/Config.lean ====
section
/-! DEFINITION. The parameters of 00_scope.md R7 that the model keeps by name, each at the value the spec decides, and the one
free value the spec leaves open. A shared operation that depends on an OPEN parameter takes its mode as an argument; the
instruction meanings call it with the value fixed here. notes/assumptions/7.md lists all fifteen parameters. -/

namespace Sys2Proof

/-- SHIFT_MODE (00_scope.md R7, 92_eei_decisions.md D7). -/
inductive ShiftMode where
  /-- The whole 16-bit amount counts; an amount of 16 or more gives 0. -/
  | full
  /-- The amount is taken modulo 16. -/
  | mod16
deriving DecidableEq, Repr

/-- MEM_ADDR_MODE (00_scope.md R7, 92_eei_decisions.md D14). -/
inductive MemAddrMode where
  /-- An address of 256 or more faults. -/
  | fault
  /-- An address is taken modulo 256. -/
  | wrap8
deriving DecidableEq, Repr

/-- PAD_MODE (00_scope.md R7, 92_eei_decisions.md D18). -/
inductive PadMode where
  /-- A pad bit of 1 raises ReservedEncoding. -/
  | fault
  /-- Pad bits are ignored. -/
  | ignore
deriving DecidableEq, Repr

/-- MOVE_SRC_FIELD (00_scope.md R7, 92_eei_decisions.md D13). -/
inductive SrcField where
  | a | b
deriving DecidableEq, Repr

namespace Config

/-- RESET_PC (00_scope.md R7, 10_state.md R33). -/
abbrev resetPc : Word := 0

/-- PC_STEP (00_scope.md R7, 10_state.md R18): pc counts instructions. -/
abbrev pcStep : Word := 1

/-- MEM_WORDS (00_scope.md R6, 10_state.md R27). -/
abbrev memWords : Nat := 256

/-- The number of IMEM locations, one for each value of the 16-bit pc (10_state.md R29). -/
abbrev imemWords : Nat := 65536

/-- SCN_SIZE (00_scope.md R7, 10_state.md R28). -/
abbrev scnSize : Nat := 65536

/-- The word at every IMEM address the program image does not fill (20_memory.md R44). -/
abbrev imemFiller : InstrWord := 0xFFFFFFFF

/-- SHIFT_MODE (40_alu_register.md R94). -/
abbrev shiftMode : ShiftMode := .full

/-- MEM_ADDR_MODE (20_memory.md R37). -/
abbrev memAddrMode : MemAddrMode := .fault

/-- PAD_MODE (30_encoding.md R62). -/
abbrev padMode : PadMode := .fault

/-- MOVE_SRC_FIELD (42_move.md R125). -/
abbrev moveSrcField : SrcField := .b

/-- The edition of the opcode assignments this model is built from (70_reset_and_hazards.md R190: a model should carry the
edition in its name and refuse images built for another). The spec gives no name for it: notes/assumptions/16.md. -/
abbrev edition : String := "V2ISA-00_soup_6b388bfc536a5483"

/-- FREE VALUE. The content after reset of the MEM word at an address, which the spec leaves unspecified
(10_state.md R33, 93_implementation_defined.md U3: any value). It has no body, so nothing can be proved of it. -/
opaque memPowerOn : Nat → Word

end Config
end Sys2Proof
end

