-- ==== Sys2Proof/Syntax.lean ====
section
/-! DEFINITION. The instructions of the V2 ISA: one constructor for each of the 76 rows of spec/opcode_table.json, in the
table's order. A constructor holds the fields its row uses (30_encoding.md R69 "fields used") and nothing else: the unused
bits have no effect (R63).

The last thirty rows are BRANCH and BRANCH_I with the COND field fixed, by the mnemonics of 30_encoding.md R78. A branch word
with a listed condition is named by its mnemonic row; `branch` and `branchI` are then what is left of their rows for
condition 0xF (30_encoding.md, "a decoder can use either"; notes/assumptions/8.md). Their meaning covers all sixteen codes. -/

namespace Sys2Proof

/-- An instruction (30_encoding.md R69, R78). -/
inductive Instr where
  /-- ALU_AND, opcode 0x00, format R (R88): R[DST] = R[A] & R[B]. -/
  | aluAnd (dst : Reg) (a : Reg) (b : Reg)
  /-- ALU_OR, opcode 0x01, format R (R89): R[DST] = R[A] | R[B]. -/
  | aluOr (dst : Reg) (a : Reg) (b : Reg)
  /-- ALU_XOR, opcode 0x02, format R (R90): R[DST] = R[A] ^ R[B]. -/
  | aluXor (dst : Reg) (a : Reg) (b : Reg)
  /-- ALU_NOT, opcode 0x03, format R (R91): R[DST] = ~R[A]. -/
  | aluNot (dst : Reg) (a : Reg)
  /-- ALU_ADD, opcode 0x04, format R (R92): R[DST] = R[A] + R[B]. -/
  | aluAdd (dst : Reg) (a : Reg) (b : Reg)
  /-- ALU_SUB, opcode 0x05, format R (R93): R[DST] = R[A] - R[B]. -/
  | aluSub (dst : Reg) (a : Reg) (b : Reg)
  /-- ALU_LSL, opcode 0x06, format R (R95): R[DST] = R[A] << R[B]. -/
  | aluLsl (dst : Reg) (a : Reg) (b : Reg)
  /-- ALU_LSR, opcode 0x07, format R (R96): R[DST] = R[A] >> R[B]. -/
  | aluLsr (dst : Reg) (a : Reg) (b : Reg)
  /-- ALU_BCDL, opcode 0x08, format R (R98): R[DST] = BCD_LOW(R[A]). -/
  | aluBcdl (dst : Reg) (a : Reg)
  /-- ALU_BCDH, opcode 0x09, format R (R99): R[DST] = BCD_HIGH(R[A]). -/
  | aluBcdh (dst : Reg) (a : Reg)
  /-- ALU_UMUL_L, opcode 0x0A, format R (R101): R[DST] = LOW(R[A] * R[B]) (unsigned). -/
  | aluUmulL (dst : Reg) (a : Reg) (b : Reg)
  /-- ALU_UMUL_H, opcode 0x0B, format R (R102): R[DST] = HIGH(R[A] * R[B]) (unsigned). -/
  | aluUmulH (dst : Reg) (a : Reg) (b : Reg)
  /-- ALU_MUL_L, opcode 0x0C, format R (R103): R[DST] = LOW(R[A] * R[B]) (signed). -/
  | aluMulL (dst : Reg) (a : Reg) (b : Reg)
  /-- ALU_MUL_H, opcode 0x0D, format R (R104): R[DST] = HIGH(R[A] * R[B]) (signed). -/
  | aluMulH (dst : Reg) (a : Reg) (b : Reg)
  /-- ALU_NUL0E, opcode 0x0E, format R (R105): Reserved ALU 0x0E. -/
  | aluNul0E
  /-- ALU_NUL0F, opcode 0x0F, format R (R106): Reserved ALU 0x0F. -/
  | aluNul0F
  /-- ALU_AND_I, opcode 0x10, format I (R109): R[DST] = R[A] & IMM. -/
  | aluAndI (dst : Reg) (a : Reg) (imm : Word)
  /-- ALU_OR_I, opcode 0x11, format I (R110): R[DST] = R[A] | IMM. -/
  | aluOrI (dst : Reg) (a : Reg) (imm : Word)
  /-- ALU_XOR_I, opcode 0x12, format I (R111): R[DST] = R[A] ^ IMM. -/
  | aluXorI (dst : Reg) (a : Reg) (imm : Word)
  /-- ALU_NOT_I, opcode 0x13, format I (R112): R[DST] = ~R[A]. -/
  | aluNotI (dst : Reg) (a : Reg)
  /-- ALU_ADD_I, opcode 0x14, format I (R113): R[DST] = R[A] + IMM. -/
  | aluAddI (dst : Reg) (a : Reg) (imm : Word)
  /-- ALU_SUB_I, opcode 0x15, format I (R114): R[DST] = R[A] - IMM. -/
  | aluSubI (dst : Reg) (a : Reg) (imm : Word)
  /-- ALU_LSL_I, opcode 0x16, format I (R115): R[DST] = R[A] << IMM. -/
  | aluLslI (dst : Reg) (a : Reg) (imm : Word)
  /-- ALU_LSR_I, opcode 0x17, format I (R116): R[DST] = R[A] >> IMM. -/
  | aluLsrI (dst : Reg) (a : Reg) (imm : Word)
  /-- ALU_BCDL_I, opcode 0x18, format I (R117): R[DST] = BCD_LOW(R[A]). -/
  | aluBcdlI (dst : Reg) (a : Reg)
  /-- ALU_BCDH_I, opcode 0x19, format I (R118): R[DST] = BCD_HIGH(R[A]). -/
  | aluBcdhI (dst : Reg) (a : Reg)
  /-- ALU_UMUL_L_I, opcode 0x1A, format I (R119): R[DST] = LOW(R[A] * IMM) (unsigned). -/
  | aluUmulLI (dst : Reg) (a : Reg) (imm : Word)
  /-- ALU_UMUL_H_I, opcode 0x1B, format I (R120): R[DST] = HIGH(R[A] * IMM) (unsigned). -/
  | aluUmulHI (dst : Reg) (a : Reg) (imm : Word)
  /-- ALU_MUL_L_I, opcode 0x1C, format I (R121): R[DST] = LOW(R[A] * IMM) (signed). -/
  | aluMulLI (dst : Reg) (a : Reg) (imm : Word)
  /-- ALU_MUL_H_I, opcode 0x1D, format I (R122): R[DST] = HIGH(R[A] * IMM) (signed). -/
  | aluMulHI (dst : Reg) (a : Reg) (imm : Word)
  /-- ALU_NUL0E_I, opcode 0x1E, format I (R123): Reserved ALU 0x1E. -/
  | aluNul0EI
  /-- ALU_NUL0F_I, opcode 0x1F, format I (R124): Reserved ALU 0x1F. -/
  | aluNul0FI
  /-- MOVE, opcode 0x40, format R (R126): R[DST] = R[SRC]. -/
  | move (dst : Reg) (b : Reg)
  /-- MOVE_I, opcode 0x41, format I (R127): R[DST] = IMM. -/
  | moveI (dst : Reg) (imm : Word)
  /-- CMP, opcode 0x42, format R (R129): FLAGS = R[A] ~ R[B]. -/
  | cmp (a : Reg) (b : Reg)
  /-- CMP_I, opcode 0x43, format I (R130): FLAGS = R[A] ~ IMM. -/
  | cmpI (a : Reg) (imm : Word)
  /-- BRANCH, opcode 0x44, format J (R150): CONDITION => PC = R[A]. -/
  | branch (cond : Cond) (reg : Reg)
  /-- BRANCH_I, opcode 0x45, format JI (R151): CONDITION => PC = IMM. -/
  | branchI (cond : Cond) (imm : Word)
  /-- READ, opcode 0x46, format R (R155): R[DST] = MEM[R[B]]. -/
  | read (dst : Reg) (b : Reg)
  /-- READ_I, opcode 0x47, format I (R156): R[DST] = MEM[IMM]. -/
  | readI (dst : Reg) (imm : Word)
  /-- WRITE, opcode 0x48, format R (R157): MEM[R[B]] = R[A]. -/
  | write (a : Reg) (b : Reg)
  /-- WRITE_I, opcode 0x49, format I (R158): MEM[IMM] = R[A]. -/
  | writeI (a : Reg) (imm : Word)
  /-- PRINT_REG, opcode 0x4A, format R (R160): SCN[R[B]] = R[A]. -/
  | printReg (a : Reg) (b : Reg)
  /-- PRINT_REG_I, opcode 0x4B, format I (R161): SCN[IMM] = R[A]. -/
  | printRegI (a : Reg) (imm : Word)
  /-- PRINT_CNS, opcode 0x4C, format R (R162): SCN[R[B]] = CONST. -/
  | printCns (b : Reg) (c : Byte)
  /-- PRINT_CNS_I, opcode 0x4D, format I (R163): SCN[IMM] = CONST. -/
  | printCnsI (x : Byte) (c : Byte)
  /-- B, opcode 0x44, format J (R150, R133): Unconditional: branch when true. -/
  | b (reg : Reg)
  /-- BEQ, opcode 0x44, format J (R150, R134): Equal: branch when Z == 1. -/
  | beq (reg : Reg)
  /-- BNE, opcode 0x44, format J (R150, R135): Not Equal: branch when Z == 0. -/
  | bne (reg : Reg)
  /-- BLT, opcode 0x44, format J (R150, R136): Less Than: branch when N == 1. -/
  | blt (reg : Reg)
  /-- BLE, opcode 0x44, format J (R150, R137): Less or Equal: branch when N == 1 or Z == 1. -/
  | ble (reg : Reg)
  /-- BGT, opcode 0x44, format J (R150, R138): Greater Than: branch when N == 0 and Z == 0. -/
  | bgt (reg : Reg)
  /-- BGE, opcode 0x44, format J (R150, R139): Greater or Equal: branch when N == 0. -/
  | bge (reg : Reg)
  /-- BCS, opcode 0x44, format J (R150, R140): Carry Set: branch when C == 1. -/
  | bcs (reg : Reg)
  /-- BCC, opcode 0x44, format J (R150, R141): Carry Clear: branch when C == 0. -/
  | bcc (reg : Reg)
  /-- BMI, opcode 0x44, format J (R150, R142): Minus/Negative: branch when N == 1. -/
  | bmi (reg : Reg)
  /-- BPL, opcode 0x44, format J (R150, R143): Plus/Positive: branch when N == 0. -/
  | bpl (reg : Reg)
  /-- BVS, opcode 0x44, format J (R150, R144): Overflow Set: branch when V == 1. -/
  | bvs (reg : Reg)
  /-- BVC, opcode 0x44, format J (R150, R145): Overflow Clear: branch when V == 0. -/
  | bvc (reg : Reg)
  /-- BHI, opcode 0x44, format J (R150, R146): Higher: branch when C == 1 and Z == 0. -/
  | bhi (reg : Reg)
  /-- BLS, opcode 0x44, format J (R150, R147): Lower or Same: branch when C == 0 or Z == 1. -/
  | bls (reg : Reg)
  /-- B, opcode 0x45, format JI (R151, R133): Unconditional: branch when true. -/
  | bImm (imm : Word)
  /-- BEQ, opcode 0x45, format JI (R151, R134): Equal: branch when Z == 1. -/
  | beqImm (imm : Word)
  /-- BNE, opcode 0x45, format JI (R151, R135): Not Equal: branch when Z == 0. -/
  | bneImm (imm : Word)
  /-- BLT, opcode 0x45, format JI (R151, R136): Less Than: branch when N == 1. -/
  | bltImm (imm : Word)
  /-- BLE, opcode 0x45, format JI (R151, R137): Less or Equal: branch when N == 1 or Z == 1. -/
  | bleImm (imm : Word)
  /-- BGT, opcode 0x45, format JI (R151, R138): Greater Than: branch when N == 0 and Z == 0. -/
  | bgtImm (imm : Word)
  /-- BGE, opcode 0x45, format JI (R151, R139): Greater or Equal: branch when N == 0. -/
  | bgeImm (imm : Word)
  /-- BCS, opcode 0x45, format JI (R151, R140): Carry Set: branch when C == 1. -/
  | bcsImm (imm : Word)
  /-- BCC, opcode 0x45, format JI (R151, R141): Carry Clear: branch when C == 0. -/
  | bccImm (imm : Word)
  /-- BMI, opcode 0x45, format JI (R151, R142): Minus/Negative: branch when N == 1. -/
  | bmiImm (imm : Word)
  /-- BPL, opcode 0x45, format JI (R151, R143): Plus/Positive: branch when N == 0. -/
  | bplImm (imm : Word)
  /-- BVS, opcode 0x45, format JI (R151, R144): Overflow Set: branch when V == 1. -/
  | bvsImm (imm : Word)
  /-- BVC, opcode 0x45, format JI (R151, R145): Overflow Clear: branch when V == 0. -/
  | bvcImm (imm : Word)
  /-- BHI, opcode 0x45, format JI (R151, R146): Higher: branch when C == 1 and Z == 0. -/
  | bhiImm (imm : Word)
  /-- BLS, opcode 0x45, format JI (R151, R147): Lower or Same: branch when C == 0 or Z == 1. -/
  | blsImm (imm : Word)
deriving DecidableEq, Repr

end Sys2Proof
end

