-- ==== Sys2Proof/WellFormed.lean ====
section
/-! DEFINITION. Which terms of Instr stand for an instruction word of their own. The field types admit exactly the values the
encoding admits (3-bit register numbers, 16-bit immediates, 8-bit constants, 4-bit conditions), so one check is left: a branch
with a listed condition is written by its mnemonic row, not as BRANCH or BRANCH_I with that condition. -/

namespace Sys2Proof

/-- The instruction is the decoder's name for some word: BRANCH and BRANCH_I are kept for condition 0xF, since the other
fifteen conditions have rows of their own (30_encoding.md R78; notes/assumptions/8.md). -/
def Instr.wellFormed : Instr → Bool
  | .branch cond _ => cond == .reservedF
  | .branchI cond _ => cond == .reservedF
  | _ => true

end Sys2Proof
end

