-- ==== Sys2Proof/Decode.lean ====
section
/-! DEFINITION. The decoder of 30_encoding.md R74, total on every 32-bit word, and after it the encoder, written from the same
formats (R56 to R59). Layout bit i is bit i of the word (R55, BIT_ORDER = lsb0). -/

namespace Sys2Proof

/-! ## The opcode map (R69) -/

/-- The four formats (R56 to R59). -/
inductive Format where
  | r | i | j | ji
deriving DecidableEq, Repr

/-- The 46 assigned opcodes by their source names (R69). -/
inductive Opcode where
  | aluAnd | aluOr | aluXor | aluNot | aluAdd | aluSub
  | aluLsl | aluLsr | aluBcdl | aluBcdh | aluUmulL | aluUmulH
  | aluMulL | aluMulH | aluNul0E | aluNul0F | aluAndI | aluOrI
  | aluXorI | aluNotI | aluAddI | aluSubI | aluLslI | aluLsrI
  | aluBcdlI | aluBcdhI | aluUmulLI | aluUmulHI | aluMulLI | aluMulHI
  | aluNul0EI | aluNul0FI | move | moveI | cmp | cmpI
  | branch | branchI | read | readI | write | writeI
  | printReg | printRegI | printCns | printCnsI
deriving DecidableEq, Repr

/-- Every assigned opcode, in the table's order. -/
def Opcode.all : List Opcode :=
  [.aluAnd, .aluOr, .aluXor, .aluNot, .aluAdd, .aluSub, .aluLsl, .aluLsr,
   .aluBcdl, .aluBcdh, .aluUmulL, .aluUmulH, .aluMulL, .aluMulH, .aluNul0E, .aluNul0F,
   .aluAndI, .aluOrI, .aluXorI, .aluNotI, .aluAddI, .aluSubI, .aluLslI, .aluLsrI,
   .aluBcdlI, .aluBcdhI, .aluUmulLI, .aluUmulHI, .aluMulLI, .aluMulHI, .aluNul0EI, .aluNul0FI,
   .move, .moveI, .cmp, .cmpI, .branch, .branchI, .read, .readI,
   .write, .writeI, .printReg, .printRegI, .printCns, .printCnsI]

/-- The opcode byte W[7:0] of an assigned opcode (R69). -/
def Opcode.byte : Opcode → Byte
  | .aluAnd => 0x00
  | .aluOr => 0x01
  | .aluXor => 0x02
  | .aluNot => 0x03
  | .aluAdd => 0x04
  | .aluSub => 0x05
  | .aluLsl => 0x06
  | .aluLsr => 0x07
  | .aluBcdl => 0x08
  | .aluBcdh => 0x09
  | .aluUmulL => 0x0A
  | .aluUmulH => 0x0B
  | .aluMulL => 0x0C
  | .aluMulH => 0x0D
  | .aluNul0E => 0x0E
  | .aluNul0F => 0x0F
  | .aluAndI => 0x10
  | .aluOrI => 0x11
  | .aluXorI => 0x12
  | .aluNotI => 0x13
  | .aluAddI => 0x14
  | .aluSubI => 0x15
  | .aluLslI => 0x16
  | .aluLsrI => 0x17
  | .aluBcdlI => 0x18
  | .aluBcdhI => 0x19
  | .aluUmulLI => 0x1A
  | .aluUmulHI => 0x1B
  | .aluMulLI => 0x1C
  | .aluMulHI => 0x1D
  | .aluNul0EI => 0x1E
  | .aluNul0FI => 0x1F
  | .move => 0x40
  | .moveI => 0x41
  | .cmp => 0x42
  | .cmpI => 0x43
  | .branch => 0x44
  | .branchI => 0x45
  | .read => 0x46
  | .readI => 0x47
  | .write => 0x48
  | .writeI => 0x49
  | .printReg => 0x4A
  | .printRegI => 0x4B
  | .printCns => 0x4C
  | .printCnsI => 0x4D

/-- The format of an assigned opcode (R69). -/
def Opcode.format : Opcode → Format
  | .aluAnd => .r
  | .aluOr => .r
  | .aluXor => .r
  | .aluNot => .r
  | .aluAdd => .r
  | .aluSub => .r
  | .aluLsl => .r
  | .aluLsr => .r
  | .aluBcdl => .r
  | .aluBcdh => .r
  | .aluUmulL => .r
  | .aluUmulH => .r
  | .aluMulL => .r
  | .aluMulH => .r
  | .aluNul0E => .r
  | .aluNul0F => .r
  | .aluAndI => .i
  | .aluOrI => .i
  | .aluXorI => .i
  | .aluNotI => .i
  | .aluAddI => .i
  | .aluSubI => .i
  | .aluLslI => .i
  | .aluLsrI => .i
  | .aluBcdlI => .i
  | .aluBcdhI => .i
  | .aluUmulLI => .i
  | .aluUmulHI => .i
  | .aluMulLI => .i
  | .aluMulHI => .i
  | .aluNul0EI => .i
  | .aluNul0FI => .i
  | .move => .r
  | .moveI => .i
  | .cmp => .r
  | .cmpI => .i
  | .branch => .j
  | .branchI => .ji
  | .read => .r
  | .readI => .i
  | .write => .r
  | .writeI => .i
  | .printReg => .r
  | .printRegI => .i
  | .printCns => .r
  | .printCnsI => .i

/-- The four reserved opcodes, which have a name and no operation (R71). -/
def Opcode.reserved : Opcode → Bool
  | .aluNul0E | .aluNul0F | .aluNul0EI | .aluNul0FI => true
  | _ => false

/-- The assigned opcode of a byte, `none` for the 210 unassigned values (R72). -/
def Opcode.ofByte (x : Byte) : Option Opcode :=
  Opcode.all.find? (fun o => o.byte == x)

/-! ## Register and condition fields -/

/-- The register a 3-bit register number selects (10_state.md R14, R61). -/
def Reg.ofNum (n : BitVec 3) : Reg :=
  if n = 0 then .x0 else if n = 1 then .x1 else if n = 2 then .x2 else if n = 3 then .x3
  else if n = 4 then .x4 else if n = 5 then .x5 else if n = 6 then .x6 else .x7

/-- The 3-bit number of a register (R61). -/
def Reg.num : Reg → BitVec 3
  | .x0 => 0 | .x1 => 1 | .x2 => 2 | .x3 => 3 | .x4 => 4 | .x5 => 5 | .x6 => 6 | .x7 => 7

/-- The condition of a 4-bit code (R67; 43_compare_branch.md R133 to R148). -/
def Cond.ofCode (c : BitVec 4) : Cond :=
  if c = 0x0 then .b else if c = 0x1 then .beq else if c = 0x2 then .bne else if c = 0x3 then .blt
  else if c = 0x4 then .ble else if c = 0x5 then .bgt else if c = 0x6 then .bge else if c = 0x7 then .bcs
  else if c = 0x8 then .bcc else if c = 0x9 then .bmi else if c = 0xA then .bpl else if c = 0xB then .bvs
  else if c = 0xC then .bvc else if c = 0xD then .bhi else if c = 0xE then .bls else .reservedF

/-- The 4-bit code of a condition (R67; 43_compare_branch.md R133 to R148). -/
def Cond.code : Cond → BitVec 4
  | .b => 0x0 | .beq => 0x1 | .bne => 0x2 | .blt => 0x3 | .ble => 0x4 | .bgt => 0x5 | .bge => 0x6 | .bcs => 0x7
  | .bcc => 0x8 | .bmi => 0x9 | .bpl => 0xA | .bvs => 0xB | .bvc => 0xC | .bhi => 0xD | .bls => 0xE
  | .reservedF => 0xF

/-! ## The fields of a word (R55 to R59, R65 to R67, R74) -/

/-- OPCODE = W[7:0] (R68). -/
def opcodeByte (w : InstrWord) : Byte := w.extractLsb' 0 8

/-- DST = W[10:8] (R56, R57). -/
def dstField (w : InstrWord) : Reg := Reg.ofNum (w.extractLsb' 8 3)

/-- A = W[14:12] (R56, R57). -/
def aField (w : InstrWord) : Reg := Reg.ofNum (w.extractLsb' 12 3)

/-- B = W[18:16] (R56); in format J the same bits are REG (R58, R61). -/
def bField (w : InstrWord) : Reg := Reg.ofNum (w.extractLsb' 16 3)

/-- IMM = W[31:16] (R57, R59, R64). -/
def immField (w : InstrWord) : Word := w.extractLsb' 16 16

/-- X = IMM[7:0] = W[23:16] (R65). -/
def xField (w : InstrWord) : Byte := w.extractLsb' 16 8

/-- CONST = Y = W[31:24] (R65, R66). -/
def constField (w : InstrWord) : Byte := w.extractLsb' 24 8

/-- COND = W[11:8] (R58, R59, R67). -/
def condField (w : InstrWord) : Cond := Cond.ofCode (w.extractLsb' 8 4)

/-- The source field of MOVE (42_move.md R125), under either value of MOVE_SRC_FIELD. -/
def moveSource (f : SrcField) (w : InstrWord) : Reg :=
  match f with
  | .a => aField w
  | .b => bField w

/-! ## Pad bits (R62) -/

/-- The pad bits of a format: W[11] and W[15] in R and I, W[19] also in R; W[15:12] in J and JI, W[19] also in J (R62). -/
def Format.padMask : Format → InstrWord
  | .r => 0x00088800
  | .i => 0x00008800
  | .j => 0x0008F000
  | .ji => 0x0000F000

/-- The word breaks the pad rule of its opcode's format. The four reserved opcodes fault before any pad bit is looked at
(R74, 60_exceptions.md R172), so nothing is checked for them. -/
def padFault (mode : PadMode) (o : Opcode) (w : InstrWord) : Bool :=
  match mode with
  | .fault => !o.reserved && (w &&& o.format.padMask) != 0
  | .ignore => false

/-! ## The decoder (R74) -/

/-- What the decoder says of a word it does not turn into an instruction. -/
inductive DecodeError where
  /-- The opcode is unassigned (R72): the step raises IllegalInstruction. -/
  | illegalInstruction
  /-- A pad bit of the opcode's format is 1 (R62): the step raises ReservedEncoding. -/
  | reservedEncoding
deriving DecidableEq, Repr

/-- A register branch by its mnemonic row (R78); condition 0xF has none and stays a BRANCH. -/
def branchOf (c : Cond) (r : Reg) : Instr :=
  match c with
  | .b => .b r
  | .beq => .beq r
  | .bne => .bne r
  | .blt => .blt r
  | .ble => .ble r
  | .bgt => .bgt r
  | .bge => .bge r
  | .bcs => .bcs r
  | .bcc => .bcc r
  | .bmi => .bmi r
  | .bpl => .bpl r
  | .bvs => .bvs r
  | .bvc => .bvc r
  | .bhi => .bhi r
  | .bls => .bls r
  | .reservedF => .branch .reservedF r

/-- An immediate branch by its mnemonic row (R78); condition 0xF has none and stays a BRANCH_I. -/
def branchImmOf (c : Cond) (imm : Word) : Instr :=
  match c with
  | .b => .bImm imm
  | .beq => .beqImm imm
  | .bne => .bneImm imm
  | .blt => .bltImm imm
  | .ble => .bleImm imm
  | .bgt => .bgtImm imm
  | .bge => .bgeImm imm
  | .bcs => .bcsImm imm
  | .bcc => .bccImm imm
  | .bmi => .bmiImm imm
  | .bpl => .bplImm imm
  | .bvs => .bvsImm imm
  | .bvc => .bvcImm imm
  | .bhi => .bhiImm imm
  | .bls => .blsImm imm
  | .reservedF => .branchI .reservedF imm

/-- The instruction of an assigned opcode, with the fields its row of R69 uses. -/
def Opcode.instr (o : Opcode) (w : InstrWord) : Instr :=
  match o with
  | .aluAnd => .aluAnd (dstField w) (aField w) (bField w)
  | .aluOr => .aluOr (dstField w) (aField w) (bField w)
  | .aluXor => .aluXor (dstField w) (aField w) (bField w)
  | .aluNot => .aluNot (dstField w) (aField w)
  | .aluAdd => .aluAdd (dstField w) (aField w) (bField w)
  | .aluSub => .aluSub (dstField w) (aField w) (bField w)
  | .aluLsl => .aluLsl (dstField w) (aField w) (bField w)
  | .aluLsr => .aluLsr (dstField w) (aField w) (bField w)
  | .aluBcdl => .aluBcdl (dstField w) (aField w)
  | .aluBcdh => .aluBcdh (dstField w) (aField w)
  | .aluUmulL => .aluUmulL (dstField w) (aField w) (bField w)
  | .aluUmulH => .aluUmulH (dstField w) (aField w) (bField w)
  | .aluMulL => .aluMulL (dstField w) (aField w) (bField w)
  | .aluMulH => .aluMulH (dstField w) (aField w) (bField w)
  | .aluNul0E => .aluNul0E
  | .aluNul0F => .aluNul0F
  | .aluAndI => .aluAndI (dstField w) (aField w) (immField w)
  | .aluOrI => .aluOrI (dstField w) (aField w) (immField w)
  | .aluXorI => .aluXorI (dstField w) (aField w) (immField w)
  | .aluNotI => .aluNotI (dstField w) (aField w)
  | .aluAddI => .aluAddI (dstField w) (aField w) (immField w)
  | .aluSubI => .aluSubI (dstField w) (aField w) (immField w)
  | .aluLslI => .aluLslI (dstField w) (aField w) (immField w)
  | .aluLsrI => .aluLsrI (dstField w) (aField w) (immField w)
  | .aluBcdlI => .aluBcdlI (dstField w) (aField w)
  | .aluBcdhI => .aluBcdhI (dstField w) (aField w)
  | .aluUmulLI => .aluUmulLI (dstField w) (aField w) (immField w)
  | .aluUmulHI => .aluUmulHI (dstField w) (aField w) (immField w)
  | .aluMulLI => .aluMulLI (dstField w) (aField w) (immField w)
  | .aluMulHI => .aluMulHI (dstField w) (aField w) (immField w)
  | .aluNul0EI => .aluNul0EI
  | .aluNul0FI => .aluNul0FI
  | .move => .move (dstField w) (moveSource Config.moveSrcField w)
  | .moveI => .moveI (dstField w) (immField w)
  | .cmp => .cmp (aField w) (bField w)
  | .cmpI => .cmpI (aField w) (immField w)
  | .branch => branchOf (condField w) (bField w)
  | .branchI => branchImmOf (condField w) (immField w)
  | .read => .read (dstField w) (bField w)
  | .readI => .readI (dstField w) (immField w)
  | .write => .write (aField w) (bField w)
  | .writeI => .writeI (aField w) (immField w)
  | .printReg => .printReg (aField w) (bField w)
  | .printRegI => .printRegI (aField w) (immField w)
  | .printCns => .printCns (bField w) (constField w)
  | .printCnsI => .printCnsI (xField w) (constField w)

/-- R74: the opcode first, then the pad bits of its format, then the fields. The four reserved opcodes are named, so that
their rows of the table decode; it is their meaning that raises IllegalInstruction (R71, notes/assumptions/9.md). -/
def decode (w : InstrWord) : Except DecodeError Instr :=
  match Opcode.ofByte (opcodeByte w) with
  | none => .error .illegalInstruction
  | some o => if padFault Config.padMode o w then .error .reservedEncoding else .ok (o.instr w)

/-- The word of a table row: its low `nbits` bits, every bit above them 0. -/
def tableWord (nbits w : Nat) : InstrWord := BitVec.ofNat 32 (w % 2 ^ nbits)

/-- The instruction the decoder reads from a word numbered as spec/opcode_table.json numbers its bits. -/
def decodeTableWord (nbits w : Nat) : Option Instr :=
  match decode (tableWord nbits w) with
  | .ok i => some i
  | .error _ => none

/-! ## The encoder (R56 to R59): the formulas of the spec; unused bits are 0 (R63) -/

/-- Format R (R56): `W = OPCODE | DST<<8 | A<<12 | B<<16`, with CONST<<24 for PRINT_CNS and 0 for every other row. -/
def packR (o : Opcode) (d a b : BitVec 3) (c : Byte) : InstrWord :=
  o.byte.setWidth 32 ||| d.setWidth 32 <<< 8 ||| a.setWidth 32 <<< 12 ||| b.setWidth 32 <<< 16 ||| c.setWidth 32 <<< 24

/-- Format I (R57): `W = OPCODE | DST<<8 | A<<12 | IMM<<16`. -/
def packI (o : Opcode) (d a : BitVec 3) (imm : Word) : InstrWord :=
  o.byte.setWidth 32 ||| d.setWidth 32 <<< 8 ||| a.setWidth 32 <<< 12 ||| imm.setWidth 32 <<< 16

/-- Format J (R58): `W = 0x44 | COND<<8 | REG<<16`. -/
def packJ (c : Cond) (r : Reg) : InstrWord :=
  Opcode.branch.byte.setWidth 32 ||| c.code.setWidth 32 <<< 8 ||| r.num.setWidth 32 <<< 16

/-- Format JI (R59): `W = 0x45 | COND<<8 | IMM<<16`. -/
def packJI (c : Cond) (imm : Word) : InstrWord :=
  Opcode.branchI.byte.setWidth 32 ||| c.code.setWidth 32 <<< 8 ||| imm.setWidth 32 <<< 16

/-- The immediate of PRINT_CNS_I: `IMM = CONST<<8 | X` (45_print.md R163). -/
def constX (c x : Byte) : Word := x.setWidth 16 ||| c.setWidth 16 <<< 8

/-- The word of MOVE (42_move.md R126), under either value of MOVE_SRC_FIELD; the other source field is unused and 0. -/
def packMove (f : SrcField) (d s : Reg) : InstrWord :=
  match f with
  | .a => packR .move d.num s.num 0 0
  | .b => packR .move d.num 0 s.num 0

/-- The canonical word of an instruction (R56 to R59, R63, R66). -/
def encode : Instr → InstrWord
  | .aluAnd dst a b => packR .aluAnd dst.num a.num b.num 0
  | .aluOr dst a b => packR .aluOr dst.num a.num b.num 0
  | .aluXor dst a b => packR .aluXor dst.num a.num b.num 0
  | .aluNot dst a => packR .aluNot dst.num a.num 0 0
  | .aluAdd dst a b => packR .aluAdd dst.num a.num b.num 0
  | .aluSub dst a b => packR .aluSub dst.num a.num b.num 0
  | .aluLsl dst a b => packR .aluLsl dst.num a.num b.num 0
  | .aluLsr dst a b => packR .aluLsr dst.num a.num b.num 0
  | .aluBcdl dst a => packR .aluBcdl dst.num a.num 0 0
  | .aluBcdh dst a => packR .aluBcdh dst.num a.num 0 0
  | .aluUmulL dst a b => packR .aluUmulL dst.num a.num b.num 0
  | .aluUmulH dst a b => packR .aluUmulH dst.num a.num b.num 0
  | .aluMulL dst a b => packR .aluMulL dst.num a.num b.num 0
  | .aluMulH dst a b => packR .aluMulH dst.num a.num b.num 0
  | .aluNul0E => packR .aluNul0E 0 0 0 0
  | .aluNul0F => packR .aluNul0F 0 0 0 0
  | .aluAndI dst a imm => packI .aluAndI dst.num a.num imm
  | .aluOrI dst a imm => packI .aluOrI dst.num a.num imm
  | .aluXorI dst a imm => packI .aluXorI dst.num a.num imm
  | .aluNotI dst a => packI .aluNotI dst.num a.num 0
  | .aluAddI dst a imm => packI .aluAddI dst.num a.num imm
  | .aluSubI dst a imm => packI .aluSubI dst.num a.num imm
  | .aluLslI dst a imm => packI .aluLslI dst.num a.num imm
  | .aluLsrI dst a imm => packI .aluLsrI dst.num a.num imm
  | .aluBcdlI dst a => packI .aluBcdlI dst.num a.num 0
  | .aluBcdhI dst a => packI .aluBcdhI dst.num a.num 0
  | .aluUmulLI dst a imm => packI .aluUmulLI dst.num a.num imm
  | .aluUmulHI dst a imm => packI .aluUmulHI dst.num a.num imm
  | .aluMulLI dst a imm => packI .aluMulLI dst.num a.num imm
  | .aluMulHI dst a imm => packI .aluMulHI dst.num a.num imm
  | .aluNul0EI => packI .aluNul0EI 0 0 0
  | .aluNul0FI => packI .aluNul0FI 0 0 0
  | .move dst b => packMove Config.moveSrcField dst b
  | .moveI dst imm => packI .moveI dst.num 0 imm
  | .cmp a b => packR .cmp 0 a.num b.num 0
  | .cmpI a imm => packI .cmpI 0 a.num imm
  | .branch cond reg => packJ cond reg
  | .branchI cond imm => packJI cond imm
  | .read dst b => packR .read dst.num 0 b.num 0
  | .readI dst imm => packI .readI dst.num 0 imm
  | .write a b => packR .write 0 a.num b.num 0
  | .writeI a imm => packI .writeI 0 a.num imm
  | .printReg a b => packR .printReg 0 a.num b.num 0
  | .printRegI a imm => packI .printRegI 0 a.num imm
  | .printCns b c => packR .printCns 0 0 b.num c
  | .printCnsI x c => packI .printCnsI 0 0 (constX c x)
  | .b reg => packJ .b reg
  | .beq reg => packJ .beq reg
  | .bne reg => packJ .bne reg
  | .blt reg => packJ .blt reg
  | .ble reg => packJ .ble reg
  | .bgt reg => packJ .bgt reg
  | .bge reg => packJ .bge reg
  | .bcs reg => packJ .bcs reg
  | .bcc reg => packJ .bcc reg
  | .bmi reg => packJ .bmi reg
  | .bpl reg => packJ .bpl reg
  | .bvs reg => packJ .bvs reg
  | .bvc reg => packJ .bvc reg
  | .bhi reg => packJ .bhi reg
  | .bls reg => packJ .bls reg
  | .bImm imm => packJI .b imm
  | .beqImm imm => packJI .beq imm
  | .bneImm imm => packJI .bne imm
  | .bltImm imm => packJI .blt imm
  | .bleImm imm => packJI .ble imm
  | .bgtImm imm => packJI .bgt imm
  | .bgeImm imm => packJI .bge imm
  | .bcsImm imm => packJI .bcs imm
  | .bccImm imm => packJI .bcc imm
  | .bmiImm imm => packJI .bmi imm
  | .bplImm imm => packJI .bpl imm
  | .bvsImm imm => packJI .bvs imm
  | .bvcImm imm => packJI .bvc imm
  | .bhiImm imm => packJI .bhi imm
  | .blsImm imm => packJI .bls imm

/-! ## The bits that matter (R63, R69) -/

/-- The bits of a word that select the instruction, are its pad bits, or lie in a field its row of R69 uses; the others are the
`u` positions of the row's `encoding` in spec/opcode_table.json. -/
def Opcode.significant : Opcode → InstrWord
  | .aluAnd => 0x000FFFFF
  | .aluOr => 0x000FFFFF
  | .aluXor => 0x000FFFFF
  | .aluNot => 0x0008FFFF
  | .aluAdd => 0x000FFFFF
  | .aluSub => 0x000FFFFF
  | .aluLsl => 0x000FFFFF
  | .aluLsr => 0x000FFFFF
  | .aluBcdl => 0x0008FFFF
  | .aluBcdh => 0x0008FFFF
  | .aluUmulL => 0x000FFFFF
  | .aluUmulH => 0x000FFFFF
  | .aluMulL => 0x000FFFFF
  | .aluMulH => 0x000FFFFF
  | .aluNul0E => 0x000000FF
  | .aluNul0F => 0x000000FF
  | .aluAndI => 0xFFFFFFFF
  | .aluOrI => 0xFFFFFFFF
  | .aluXorI => 0xFFFFFFFF
  | .aluNotI => 0x0000FFFF
  | .aluAddI => 0xFFFFFFFF
  | .aluSubI => 0xFFFFFFFF
  | .aluLslI => 0xFFFFFFFF
  | .aluLsrI => 0xFFFFFFFF
  | .aluBcdlI => 0x0000FFFF
  | .aluBcdhI => 0x0000FFFF
  | .aluUmulLI => 0xFFFFFFFF
  | .aluUmulHI => 0xFFFFFFFF
  | .aluMulLI => 0xFFFFFFFF
  | .aluMulHI => 0xFFFFFFFF
  | .aluNul0EI => 0x000000FF
  | .aluNul0FI => 0x000000FF
  | .move => 0x000F8FFF
  | .moveI => 0xFFFF8FFF
  | .cmp => 0x000FF8FF
  | .cmpI => 0xFFFFF8FF
  | .branch => 0x000FFFFF
  | .branchI => 0xFFFFFFFF
  | .read => 0x000F8FFF
  | .readI => 0xFFFF8FFF
  | .write => 0x000FF8FF
  | .writeI => 0xFFFFF8FF
  | .printReg => 0x000FF8FF
  | .printRegI => 0xFFFFF8FF
  | .printCns => 0xFF0F88FF
  | .printCnsI => 0xFFFF88FF

/-- The opcode an instruction is encoded with (R69, R78). -/
def Instr.opcode : Instr → Opcode
  | .aluAnd _ _ _ => .aluAnd
  | .aluOr _ _ _ => .aluOr
  | .aluXor _ _ _ => .aluXor
  | .aluNot _ _ => .aluNot
  | .aluAdd _ _ _ => .aluAdd
  | .aluSub _ _ _ => .aluSub
  | .aluLsl _ _ _ => .aluLsl
  | .aluLsr _ _ _ => .aluLsr
  | .aluBcdl _ _ => .aluBcdl
  | .aluBcdh _ _ => .aluBcdh
  | .aluUmulL _ _ _ => .aluUmulL
  | .aluUmulH _ _ _ => .aluUmulH
  | .aluMulL _ _ _ => .aluMulL
  | .aluMulH _ _ _ => .aluMulH
  | .aluNul0E => .aluNul0E
  | .aluNul0F => .aluNul0F
  | .aluAndI _ _ _ => .aluAndI
  | .aluOrI _ _ _ => .aluOrI
  | .aluXorI _ _ _ => .aluXorI
  | .aluNotI _ _ => .aluNotI
  | .aluAddI _ _ _ => .aluAddI
  | .aluSubI _ _ _ => .aluSubI
  | .aluLslI _ _ _ => .aluLslI
  | .aluLsrI _ _ _ => .aluLsrI
  | .aluBcdlI _ _ => .aluBcdlI
  | .aluBcdhI _ _ => .aluBcdhI
  | .aluUmulLI _ _ _ => .aluUmulLI
  | .aluUmulHI _ _ _ => .aluUmulHI
  | .aluMulLI _ _ _ => .aluMulLI
  | .aluMulHI _ _ _ => .aluMulHI
  | .aluNul0EI => .aluNul0EI
  | .aluNul0FI => .aluNul0FI
  | .move _ _ => .move
  | .moveI _ _ => .moveI
  | .cmp _ _ => .cmp
  | .cmpI _ _ => .cmpI
  | .branch _ _ => .branch
  | .branchI _ _ => .branchI
  | .read _ _ => .read
  | .readI _ _ => .readI
  | .write _ _ => .write
  | .writeI _ _ => .writeI
  | .printReg _ _ => .printReg
  | .printRegI _ _ => .printRegI
  | .printCns _ _ => .printCns
  | .printCnsI _ _ => .printCnsI
  | .b _ => .branch
  | .beq _ => .branch
  | .bne _ => .branch
  | .blt _ => .branch
  | .ble _ => .branch
  | .bgt _ => .branch
  | .bge _ => .branch
  | .bcs _ => .branch
  | .bcc _ => .branch
  | .bmi _ => .branch
  | .bpl _ => .branch
  | .bvs _ => .branch
  | .bvc _ => .branch
  | .bhi _ => .branch
  | .bls _ => .branch
  | .bImm _ => .branchI
  | .beqImm _ => .branchI
  | .bneImm _ => .branchI
  | .bltImm _ => .branchI
  | .bleImm _ => .branchI
  | .bgtImm _ => .branchI
  | .bgeImm _ => .branchI
  | .bcsImm _ => .branchI
  | .bccImm _ => .branchI
  | .bmiImm _ => .branchI
  | .bplImm _ => .branchI
  | .bvsImm _ => .branchI
  | .bvcImm _ => .branchI
  | .bhiImm _ => .branchI
  | .blsImm _ => .branchI

end Sys2Proof
end

