-- ==== Sys2Proof/Machine/Operands.lean ====
section
/-! DEFINITION. The result functions of the ALU instructions on two 16-bit operands (40_alu_register.md). An operand is a
register's value or the 16-bit immediate, used as it stands (30_encoding.md R60, R64), so each function serves both forms. -/

namespace Sys2Proof.Machine

/-! ## Bitwise, addition and subtraction (R88 to R93): results reduced modulo 2^16 (R87) -/

/-- R88. -/
def andWord (a b : Word) : Word := a &&& b

/-- R89. -/
def orWord (a b : Word) : Word := a ||| b

/-- R90. -/
def xorWord (a b : Word) : Word := a ^^^ b

/-- R91. -/
def notWord (a : Word) : Word := ~~~a

/-- R92. -/
def addWord (a b : Word) : Word := a + b

/-- R93: `a` is the minuend. -/
def subWord (a b : Word) : Word := a - b

/-! ## Shifts (R94 to R96) -/

/-- How many places a shift moves its operand, under either value of SHIFT_MODE (R94). -/
def shiftAmount (mode : ShiftMode) (b : Word) : Nat :=
  match mode with
  | .full => b.toNat
  | .mod16 => b.toNat % 16

/-- R95: zeros enter at bit 0; a move of 16 or more gives 0. -/
def lslWord (mode : ShiftMode) (a b : Word) : Word :=
  if shiftAmount mode b < 16 then a <<< shiftAmount mode b else 0

/-- R96: zeros enter at bit 15; a move of 16 or more gives 0. -/
def lsrWord (mode : ShiftMode) (a b : Word) : Word :=
  if shiftAmount mode b < 16 then a >>> shiftAmount mode b else 0

/-! ## Binary to BCD (R97) -/

/-- Decimal digit `k` of an unsigned word, as a nibble: floor(u(a) / 10^k) mod 10. -/
def bcdDigit (k : Nat) (a : Word) : BitVec 4 := BitVec.ofNat 4 (a.toNat / 10 ^ k % 10)

/-- BCD_LOW: the four lower digits, the more significant in the more significant nibble (R97). -/
def bcdLow (a : Word) : Word :=
  (bcdDigit 3 a).setWidth 16 <<< 12 ||| (bcdDigit 2 a).setWidth 16 <<< 8 |||
    (bcdDigit 1 a).setWidth 16 <<< 4 ||| (bcdDigit 0 a).setWidth 16

/-- BCD_HIGH: the fifth digit; the three upper digits are 0 (R97). -/
def bcdHigh (a : Word) : Word := (bcdDigit 4 a).setWidth 16

/-! ## Multiplication (R100) -/

/-- The unsigned product `trunc_32(u(a) * u(b))`. -/
def umulProduct (a b : Word) : BitVec 32 := BitVec.ofNat 32 (a.toNat * b.toNat)

/-- The signed product `trunc_32(s(a) * s(b))`. -/
def mulProduct (a b : Word) : BitVec 32 := BitVec.ofInt 32 (a.toInt * b.toInt)

/-- `LOW(P) = P[15:0]`. -/
def lowHalf (p : BitVec 32) : Word := p.extractLsb' 0 16

/-- `HIGH(P) = P[31:16]`. -/
def highHalf (p : BitVec 32) : Word := p.extractLsb' 16 16

end Sys2Proof.Machine
end

