-- ==== Sys2Proof/Machine/State.lean ====
section
/-! DEFINITION. The architectural state of 10_state.md R32, the ways a step can stop (60_exceptions.md R165 to R170), and the
state after reset (10_state.md R33). -/

namespace Sys2Proof.Machine

/-- The eight general registers, 16 bits each (10_state.md R12). None is hardwired, aliased or banked (R13). -/
structure Regs where
  x0 : Word
  x1 : Word
  x2 : Word
  x3 : Word
  x4 : Word
  x5 : Word
  x6 : Word
  x7 : Word
deriving DecidableEq, Repr

/-- FLAGS, the four condition flags (10_state.md R22). The spec gives them no packed layout. -/
structure Flags where
  z : Bool
  n : Bool
  c : Bool
  v : Bool
deriving DecidableEq, Repr

/-- The two kinds of thing a screen cell can hold (10_state.md R28). -/
inductive ScnKind where
  /-- A 16-bit register value (PRINT_REG, PRINT_REG_I). -/
  | value
  /-- An 8-bit character constant, extended with zeros (PRINT_CNS, PRINT_CNS_I). -/
  | char
deriving DecidableEq, Repr

/-- What one screen position holds: the pair (kind, value) of 20_memory.md R46. -/
structure ScnCell where
  kind : ScnKind
  value : Word
deriving DecidableEq, Repr

/-- One `ScnWrite(pos, kind, v)` event (20_memory.md R46). -/
structure ScnEvent where
  pos : Word
  cell : ScnCell
deriving DecidableEq, Repr

/-- A space held sparsely: the listed addresses with their contents, addresses strictly rising. Each space says what an
unlisted address reads as (Machine/Ops.lean). -/
abbrev Cells (α : Type) := List (Nat × α)

/-- MEM, 256 words of 16 bits addressed by word (10_state.md R27, 20_memory.md R34). Listed are the words written since reset. -/
abbrev Memory := Cells Word

/-- SCN (10_state.md R28). Listed are the positions printed to since reset. -/
abbrev Screen := Cells ScnCell

/-- IMEM, 65536 instruction words (10_state.md R29). Listed are the words that are not the filler of 20_memory.md R44. -/
abbrev InstrMemory := Cells InstrWord

/-- The machine's state: the tuple of 10_state.md R32; beside SCN the list of screen writes that R32 allows a model to keep
(notes/assumptions/5.md); and the program image IMEM, which R32 makes a fixed argument of the step and which no instruction
writes (20_memory.md R45, notes/assumptions/6.md). -/
structure State where
  /-- X0 to X7 (R12). -/
  regs : Regs
  /-- The program counter, which counts instructions (R17, R18). -/
  pc : Word
  /-- Z, N, C, V (R22). -/
  flags : Flags
  /-- MEM (R27). -/
  mem : Memory
  /-- SCN (R28). -/
  scn : Screen
  /-- The ScnWrite events in the order executed, oldest first (R32). -/
  scnLog : List ScnEvent
  /-- IMEM, the program image (R29). -/
  imem : InstrMemory
deriving DecidableEq, Repr

/-- The five model faults (60_exceptions.md R165 to R170). Each is terminal and changes no state, and records the address and
the word of the instruction that faulted, with the kind's own info. All are safe: the model stops where the hardware may go on
(R165), so a true claim may become unprovable and no false one provable. -/
inductive Fault where
  /-- R166: the opcode is unassigned (raised by the step, from the decoder) or reserved (raised by the four reserved ALU
  instructions). Safe. -/
  | illegalInstruction (pc : Word) (word : InstrWord)
  /-- R167: the opcode is assigned and defined and a pad bit of its format is 1; raised by the step, from the decoder. Safe. -/
  | reservedEncoding (pc : Word) (word : InstrWord)
  /-- R168: condition code 0xF; raised by BRANCH and BRANCH_I. Safe. -/
  | reservedCondition (pc : Word) (word : InstrWord)
  /-- R169: the effective address is 256 or more; raised by READ, READ_I, WRITE, WRITE_I. Safe. -/
  | addressOutOfRange (pc : Word) (word : InstrWord) (addr : Word)
  /-- R170: the position is SCN_SIZE or more; raised by the four print instructions, never with SCN_SIZE = 65536. Safe. -/
  | screenOutOfRange (pc : Word) (word : InstrWord) (pos : Word)
deriving DecidableEq, Repr

/-- The reasons the model declines to act. No step of this model refuses. -/
inductive Refusal where
  /-- An instruction that has no meaning yet. Raised by no arm of exec: every instruction has one. Safe. -/
  | notModelled (mnemonic : String)
  /-- The loader (Machine/Loader.lean) was given an image built for other opcode assignments (70_reset_and_hazards.md R190,
  93_implementation_defined.md U12). Safe. -/
  | wrongEdition (edition : String)
  /-- The loader was given more instructions than IMEM has locations (10_state.md R29). Safe. -/
  | imageTooLong (length : Nat)
deriving DecidableEq, Repr

/-- The state after reset (10_state.md R33): pc is RESET_PC. The spec leaves the registers, the flags, MEM and SCN
unspecified; here the registers and flags are 0 (DESIGN CHOICE, unsafe: notes/assumptions/1.md, 2.md) and nothing is listed in
MEM and SCN (notes/assumptions/3.md, 4.md). No program is loaded (notes/assumptions/6.md). -/
def State.reset : State where
  regs := { x0 := 0, x1 := 0, x2 := 0, x3 := 0, x4 := 0, x5 := 0, x6 := 0, x7 := 0 }
  pc := Config.resetPc
  flags := { z := false, n := false, c := false, v := false }
  mem := []
  scn := []
  scnLog := []
  imem := []

end Sys2Proof.Machine
end

