-- ==== Sys2Proof/Machine/Ops.lean ====
section
/-! DEFINITION. The named operations every meaning is built from: the sparse spaces and their canonical form, the registers,
the program counter, MemRead, MemWrite, ScnWrite and fetch (00_scope.md R10), and the faults with what they record
(60_exceptions.md R165). The hardware takes no exception and returns from none (60_exceptions.md R164, R173), so there is
neither operation. -/

namespace Sys2Proof.Machine

/-- What a meaning answers. -/
abbrev Result := Host.Outcome State Fault Refusal

/-! ## Sparse spaces -/

/-- The content listed for an address. -/
def Cells.lookup {α : Type} : Cells α → Nat → Option α
  | [], _ => none
  | (j, v) :: rest, k => if j = k then some v else Cells.lookup rest k

/-- List a content for an address, in its place. -/
def Cells.insert {α : Type} : Cells α → Nat → α → Cells α
  | [], k, v => [(k, v)]
  | (j, u) :: rest, k, v =>
    if k < j then (k, v) :: (j, u) :: rest
    else if k = j then (k, v) :: rest
    else (j, u) :: Cells.insert rest k v

/-- Take an address off the list. -/
def Cells.erase {α : Type} (m : Cells α) (k : Nat) : Cells α :=
  m.filter (fun e => e.1 != k)

/-- The addresses rise strictly. -/
def Cells.rising {α : Type} : Cells α → Bool
  | [] => true
  | [_] => true
  | (j, _) :: (k, v) :: rest => decide (j < k) && Cells.rising ((k, v) :: rest)

/-- The addresses rise strictly and all lie below a bound. -/
def Cells.wfBelow {α : Type} (bound : Nat) (m : Cells α) : Bool :=
  Cells.rising m && m.all (fun e => decide (e.1 < bound))

/-! ## MEM (20_memory.md R34 to R39) -/

/-- The canonical form of MEM: addresses strictly rising, each one of the 256. An unlisted address holds no written word, so no
entry equals what an unlisted address reads as. -/
def Memory.wf (m : Memory) : Bool := Cells.wfBelow Config.memWords m

/-- The word at an address: the one last written there, or the initial content if none was (R35). The initial content is the
free value (10_state.md R33, notes/assumptions/3.md). -/
def Memory.read (m : Memory) (k : Nat) : Word := (Cells.lookup m k).getD (Config.memPowerOn k)

/-- Replace the whole word at an address (R36, R38). -/
def Memory.write (m : Memory) (k : Nat) (v : Word) : Memory := Cells.insert m k v

/-- The MEM location an address operand names, `none` where it names none (R37), under either value of MEM_ADDR_MODE. -/
def memIndex (mode : MemAddrMode) (addr : Word) : Option Nat :=
  match mode with
  | .fault => if addr.toNat < Config.memWords then some addr.toNat else none
  | .wrap8 => some (addr.toNat % Config.memWords)

/-! ## SCN (20_memory.md R46, R47) -/

/-- The canonical form of SCN: positions strictly rising, each below SCN_SIZE. An unlisted position is empty. -/
def Screen.wf (c : Screen) : Bool := Cells.wfBelow Config.scnSize c

/-- What was last printed at a position, `none` if nothing was since reset. Only the host looks (R47). -/
def Screen.read (c : Screen) (k : Nat) : Option ScnCell := Cells.lookup c k

/-- Replace the cell at a position (R46). -/
def Screen.write (c : Screen) (k : Nat) (cell : ScnCell) : Screen := Cells.insert c k cell

/-! ## IMEM (10_state.md R29, 20_memory.md R44) -/

/-- The canonical form of IMEM: addresses strictly rising, each below 65536, and no entry equal to the filler an unlisted
address reads as. -/
def InstrMemory.wf (m : InstrMemory) : Bool :=
  Cells.wfBelow Config.imemWords m && m.all (fun e => e.2 != Config.imemFiller)

/-- The instruction word at an address: the filler 0xFFFFFFFF where the program image gives none (R44). -/
def InstrMemory.read (m : InstrMemory) (k : Nat) : InstrWord := (Cells.lookup m k).getD Config.imemFiller

/-- Put a word into IMEM. Only the host does this, before a run (70_reset_and_hazards.md R184). -/
def InstrMemory.write (m : InstrMemory) (k : Nat) (w : InstrWord) : InstrMemory :=
  if w = Config.imemFiller then Cells.erase m k else Cells.insert m k w

/-- The canonical form of the whole state. -/
def State.wf (s : State) : Bool := Memory.wf s.mem && Screen.wf s.scn && InstrMemory.wf s.imem

/-! ## Registers, flags and pc (00_scope.md R10) -/

/-- `x[i]`. -/
def Regs.get (x : Regs) (r : Reg) : Word :=
  match r with
  | .x0 => x.x0 | .x1 => x.x1 | .x2 => x.x2 | .x3 => x.x3 | .x4 => x.x4 | .x5 => x.x5 | .x6 => x.x6 | .x7 => x.x7

/-- `x[i] <- v`. -/
def Regs.set (x : Regs) (r : Reg) (v : Word) : Regs :=
  match r with
  | .x0 => { x with x0 := v } | .x1 => { x with x1 := v } | .x2 => { x with x2 := v } | .x3 => { x with x3 := v }
  | .x4 => { x with x4 := v } | .x5 => { x with x5 := v } | .x6 => { x with x6 := v } | .x7 => { x with x7 := v }

/-- The value of a register. -/
def State.reg (s : State) (r : Reg) : Word := s.regs.get r

/-- The state with one register replaced. -/
def State.setReg (s : State) (r : Reg) (v : Word) : State := { s with regs := s.regs.set r v }

/-- `FLAGS <- (z, n, c, v)`. -/
def State.setFlags (s : State) (f : Flags) : State := { s with flags := f }

/-- `pc <- t`. -/
def State.setPc (s : State) (t : Word) : State := { s with pc := t }

/-- `pc <- trunc_16(pc + 1)` (10_state.md R19): the counter wraps. -/
def State.advance (s : State) : State := s.setPc (s.pc + Config.pcStep)

/-- The state with one MEM word replaced. -/
def State.setMem (s : State) (k : Nat) (v : Word) : State := { s with mem := s.mem.write k v }

/-- The state after one ScnWrite event: the cell replaced and the event listed (20_memory.md R46). -/
def State.setScn (s : State) (pos : Word) (cell : ScnCell) : State :=
  { s with scn := s.scn.write pos.toNat cell, scnLog := s.scnLog ++ [{ pos := pos, cell := cell }] }

/-! ## Fetch and faults -/

/-- `W <- IMEM[pc]` (20_memory.md R44). -/
def State.fetch (s : State) : InstrWord := s.imem.read s.pc.toNat

/-- A fault kind with what every fault records: the address of the faulting instruction and its word (60_exceptions.md R165,
notes/assumptions/10.md). -/
def raise (kind : Word → InstrWord → Fault) (s : State) : Result := .fault (kind s.pc s.fetch)

/-! ## What the instruction rules share -/

/-- Write one register and step the pc: the whole effect of an ALU or move instruction (40_alu_register.md R84, R85). -/
def writeResult (d : Reg) (v : Word) (s : State) : Result := .next (s.setReg d v).advance

/-- `x[d] <- MemRead(ea, 16)` and step the pc (44_memory_ops.md R155, R156; 20_memory.md R35, R37). -/
def loadWord (d : Reg) (ea : Word) (s : State) : Result :=
  match memIndex Config.memAddrMode ea with
  | none => raise (fun pc w => .addressOutOfRange pc w ea) s
  | some k => .next (s.setReg d (s.mem.read k)).advance

/-- `MemWrite(ea, 16, v)` and step the pc (44_memory_ops.md R157, R158; 20_memory.md R36, R37). -/
def storeWord (ea v : Word) (s : State) : Result :=
  match memIndex Config.memAddrMode ea with
  | none => raise (fun pc w => .addressOutOfRange pc w ea) s
  | some k => .next (s.setMem k v).advance

/-- `ScnWrite(pos, kind, v)` and step the pc (45_print.md R159, 20_memory.md R46). -/
def printCell (pos : Word) (kind : ScnKind) (v : Word) (s : State) : Result :=
  if pos.toNat < Config.scnSize then .next (s.setScn pos { kind := kind, value := v }).advance
  else raise (fun pc w => .screenOutOfRange pc w pos) s

end Sys2Proof.Machine
end

