-- ==== Sys2Proof/Machine/AluImmediate.lean ====
section
/-! DEFINITION. The ALU instructions in immediate format, opcodes 0x10 to 0x1F (41_alu_immediate.md R107 to R124). -/

namespace Sys2Proof.Machine

/-- ALU_AND_I (R109): R[DST] = R[A] & IMM. -/
def execAluAndI (dst : Reg) (a : Reg) (imm : Word) (s : State) : Result := writeResult dst (andWord (s.reg a) imm) s

/-- ALU_OR_I (R110): R[DST] = R[A] | IMM. -/
def execAluOrI (dst : Reg) (a : Reg) (imm : Word) (s : State) : Result := writeResult dst (orWord (s.reg a) imm) s

/-- ALU_XOR_I (R111): R[DST] = R[A] ^ IMM. -/
def execAluXorI (dst : Reg) (a : Reg) (imm : Word) (s : State) : Result := writeResult dst (xorWord (s.reg a) imm) s

/-- ALU_NOT_I (R112): R[DST] = ~R[A]. -/
def execAluNotI (dst : Reg) (a : Reg) (s : State) : Result := writeResult dst (notWord (s.reg a)) s

/-- ALU_ADD_I (R113): R[DST] = R[A] + IMM. -/
def execAluAddI (dst : Reg) (a : Reg) (imm : Word) (s : State) : Result := writeResult dst (addWord (s.reg a) imm) s

/-- ALU_SUB_I (R114): R[DST] = R[A] - IMM. -/
def execAluSubI (dst : Reg) (a : Reg) (imm : Word) (s : State) : Result := writeResult dst (subWord (s.reg a) imm) s

/-- ALU_LSL_I (R115): R[DST] = R[A] << IMM. -/
def execAluLslI (dst : Reg) (a : Reg) (imm : Word) (s : State) : Result := writeResult dst (lslWord Config.shiftMode (s.reg a) imm) s

/-- ALU_LSR_I (R116): R[DST] = R[A] >> IMM. -/
def execAluLsrI (dst : Reg) (a : Reg) (imm : Word) (s : State) : Result := writeResult dst (lsrWord Config.shiftMode (s.reg a) imm) s

/-- ALU_BCDL_I (R117): R[DST] = BCD_LOW(R[A]). -/
def execAluBcdlI (dst : Reg) (a : Reg) (s : State) : Result := writeResult dst (bcdLow (s.reg a)) s

/-- ALU_BCDH_I (R118): R[DST] = BCD_HIGH(R[A]). -/
def execAluBcdhI (dst : Reg) (a : Reg) (s : State) : Result := writeResult dst (bcdHigh (s.reg a)) s

/-- ALU_UMUL_L_I (R119): R[DST] = LOW(R[A] * IMM) (unsigned). -/
def execAluUmulLI (dst : Reg) (a : Reg) (imm : Word) (s : State) : Result := writeResult dst (lowHalf (umulProduct (s.reg a) imm)) s

/-- ALU_UMUL_H_I (R120): R[DST] = HIGH(R[A] * IMM) (unsigned). -/
def execAluUmulHI (dst : Reg) (a : Reg) (imm : Word) (s : State) : Result := writeResult dst (highHalf (umulProduct (s.reg a) imm)) s

/-- ALU_MUL_L_I (R121): R[DST] = LOW(R[A] * IMM) (signed). -/
def execAluMulLI (dst : Reg) (a : Reg) (imm : Word) (s : State) : Result := writeResult dst (lowHalf (mulProduct (s.reg a) imm)) s

/-- ALU_MUL_H_I (R122): R[DST] = HIGH(R[A] * IMM) (signed). -/
def execAluMulHI (dst : Reg) (a : Reg) (imm : Word) (s : State) : Result := writeResult dst (highHalf (mulProduct (s.reg a) imm)) s

/-- ALU_NUL0E_I (R123): reserved; the rule raises IllegalInstruction. -/
def execAluNul0EI (s : State) : Result := raise .illegalInstruction s

/-- ALU_NUL0F_I (R124): reserved; the rule raises IllegalInstruction. -/
def execAluNul0FI (s : State) : Result := raise .illegalInstruction s

end Sys2Proof.Machine
end

