-- ==== Sys2Proof/Machine/AluRegister.lean ====
section
/-! DEFINITION. The ALU instructions in register format, opcodes 0x00 to 0x0F (40_alu_register.md R84 to R106). -/

namespace Sys2Proof.Machine

/-- ALU_AND (R88): R[DST] = R[A] & R[B]. -/
def execAluAnd (dst : Reg) (a : Reg) (b : Reg) (s : State) : Result := writeResult dst (andWord (s.reg a) (s.reg b)) s

/-- ALU_OR (R89): R[DST] = R[A] | R[B]. -/
def execAluOr (dst : Reg) (a : Reg) (b : Reg) (s : State) : Result := writeResult dst (orWord (s.reg a) (s.reg b)) s

/-- ALU_XOR (R90): R[DST] = R[A] ^ R[B]. -/
def execAluXor (dst : Reg) (a : Reg) (b : Reg) (s : State) : Result := writeResult dst (xorWord (s.reg a) (s.reg b)) s

/-- ALU_NOT (R91): R[DST] = ~R[A]. -/
def execAluNot (dst : Reg) (a : Reg) (s : State) : Result := writeResult dst (notWord (s.reg a)) s

/-- ALU_ADD (R92): R[DST] = R[A] + R[B]. -/
def execAluAdd (dst : Reg) (a : Reg) (b : Reg) (s : State) : Result := writeResult dst (addWord (s.reg a) (s.reg b)) s

/-- ALU_SUB (R93): R[DST] = R[A] - R[B]. -/
def execAluSub (dst : Reg) (a : Reg) (b : Reg) (s : State) : Result := writeResult dst (subWord (s.reg a) (s.reg b)) s

/-- ALU_LSL (R95): R[DST] = R[A] << R[B]. -/
def execAluLsl (dst : Reg) (a : Reg) (b : Reg) (s : State) : Result := writeResult dst (lslWord Config.shiftMode (s.reg a) (s.reg b)) s

/-- ALU_LSR (R96): R[DST] = R[A] >> R[B]. -/
def execAluLsr (dst : Reg) (a : Reg) (b : Reg) (s : State) : Result := writeResult dst (lsrWord Config.shiftMode (s.reg a) (s.reg b)) s

/-- ALU_BCDL (R98): R[DST] = BCD_LOW(R[A]). -/
def execAluBcdl (dst : Reg) (a : Reg) (s : State) : Result := writeResult dst (bcdLow (s.reg a)) s

/-- ALU_BCDH (R99): R[DST] = BCD_HIGH(R[A]). -/
def execAluBcdh (dst : Reg) (a : Reg) (s : State) : Result := writeResult dst (bcdHigh (s.reg a)) s

/-- ALU_UMUL_L (R101): R[DST] = LOW(R[A] * R[B]) (unsigned). -/
def execAluUmulL (dst : Reg) (a : Reg) (b : Reg) (s : State) : Result := writeResult dst (lowHalf (umulProduct (s.reg a) (s.reg b))) s

/-- ALU_UMUL_H (R102): R[DST] = HIGH(R[A] * R[B]) (unsigned). -/
def execAluUmulH (dst : Reg) (a : Reg) (b : Reg) (s : State) : Result := writeResult dst (highHalf (umulProduct (s.reg a) (s.reg b))) s

/-- ALU_MUL_L (R103): R[DST] = LOW(R[A] * R[B]) (signed). -/
def execAluMulL (dst : Reg) (a : Reg) (b : Reg) (s : State) : Result := writeResult dst (lowHalf (mulProduct (s.reg a) (s.reg b))) s

/-- ALU_MUL_H (R104): R[DST] = HIGH(R[A] * R[B]) (signed). -/
def execAluMulH (dst : Reg) (a : Reg) (b : Reg) (s : State) : Result := writeResult dst (highHalf (mulProduct (s.reg a) (s.reg b))) s

/-- ALU_NUL0E (R105): reserved; the rule raises IllegalInstruction. -/
def execAluNul0E (s : State) : Result := raise .illegalInstruction s

/-- ALU_NUL0F (R106): reserved; the rule raises IllegalInstruction. -/
def execAluNul0F (s : State) : Result := raise .illegalInstruction s

end Sys2Proof.Machine
end

