-- ==== Sys2Proof/Machine/Flags.lean ====
section
/-! DEFINITION. The flags of a comparison and the conditions on them (43_compare_branch.md R128, R132 to R148), with the two
shared operations that use them. -/

namespace Sys2Proof.Machine

/-- The 17-bit sum u(a) + u(~b) + 1 of a comparison (R128). -/
def cmpSum (a b : Word) : BitVec 17 := a.setWidth 17 + (~~~b).setWidth 17 + 1

/-- CmpFlags(a, b), the decided value of CMP_FLAGS (R128): the subtraction a - b as a + ~b + 1, its result dropped. -/
def cmpFlags (a b : Word) : Flags :=
  let r : Word := (cmpSum a b).setWidth 16
  { z := r == 0
    n := r.msb
    c := (cmpSum a b).msb
    v := a.msb != b.msb && r.msb != a.msb }

/-- CondHolds(c), `none` for code 0xF, which has no meaning (R132 to R148). -/
def condHolds (c : Cond) (f : Flags) : Option Bool :=
  match c with
  | .b => some true
  | .beq => some f.z
  | .bne => some (!f.z)
  | .blt => some f.n
  | .ble => some (f.n || f.z)
  | .bgt => some (!f.n && !f.z)
  | .bge => some (!f.n)
  | .bcs => some f.c
  | .bcc => some (!f.c)
  | .bmi => some f.n
  | .bpl => some (!f.n)
  | .bvs => some f.v
  | .bvc => some (!f.v)
  | .bhi => some (f.c && !f.z)
  | .bls => some (!f.c || f.z)
  | .reservedF => none

/-- `FLAGS <- CmpFlags(a, b)` and step the pc (R129, R130). -/
def compareWords (a b : Word) (s : State) : Result := .next (s.setFlags (cmpFlags a b)).advance

/-- Branch to a target if a condition holds, else step the pc (R150, R151, R152). -/
def branchTo (c : Cond) (target : Word) (s : State) : Result :=
  match condHolds c s.flags with
  | none => raise .reservedCondition s
  | some true => .next (s.setPc target)
  | some false => .next s.advance

end Sys2Proof.Machine
end

