-- ==== Sys2Proof/Machine/Branch.lean ====
section
/-! DEFINITION. BRANCH and BRANCH_I, and their fifteen mnemonic rows each (43_compare_branch.md R150 to R152, 30_encoding.md R78). -/

namespace Sys2Proof.Machine

/-- BRANCH (R150): CONDITION => PC = R[A]. -/
def execBranch (cond : Cond) (reg : Reg) (s : State) : Result := branchTo cond (s.reg reg) s

/-- BRANCH_I (R151): CONDITION => PC = IMM. -/
def execBranchI (cond : Cond) (imm : Word) (s : State) : Result := branchTo cond imm s

/-- B (R150, R133): Unconditional: branch when true. -/
def execB (reg : Reg) (s : State) : Result := branchTo .b (s.reg reg) s

/-- BEQ (R150, R134): Equal: branch when Z == 1. -/
def execBeq (reg : Reg) (s : State) : Result := branchTo .beq (s.reg reg) s

/-- BNE (R150, R135): Not Equal: branch when Z == 0. -/
def execBne (reg : Reg) (s : State) : Result := branchTo .bne (s.reg reg) s

/-- BLT (R150, R136): Less Than: branch when N == 1. -/
def execBlt (reg : Reg) (s : State) : Result := branchTo .blt (s.reg reg) s

/-- BLE (R150, R137): Less or Equal: branch when N == 1 or Z == 1. -/
def execBle (reg : Reg) (s : State) : Result := branchTo .ble (s.reg reg) s

/-- BGT (R150, R138): Greater Than: branch when N == 0 and Z == 0. -/
def execBgt (reg : Reg) (s : State) : Result := branchTo .bgt (s.reg reg) s

/-- BGE (R150, R139): Greater or Equal: branch when N == 0. -/
def execBge (reg : Reg) (s : State) : Result := branchTo .bge (s.reg reg) s

/-- BCS (R150, R140): Carry Set: branch when C == 1. -/
def execBcs (reg : Reg) (s : State) : Result := branchTo .bcs (s.reg reg) s

/-- BCC (R150, R141): Carry Clear: branch when C == 0. -/
def execBcc (reg : Reg) (s : State) : Result := branchTo .bcc (s.reg reg) s

/-- BMI (R150, R142): Minus/Negative: branch when N == 1. -/
def execBmi (reg : Reg) (s : State) : Result := branchTo .bmi (s.reg reg) s

/-- BPL (R150, R143): Plus/Positive: branch when N == 0. -/
def execBpl (reg : Reg) (s : State) : Result := branchTo .bpl (s.reg reg) s

/-- BVS (R150, R144): Overflow Set: branch when V == 1. -/
def execBvs (reg : Reg) (s : State) : Result := branchTo .bvs (s.reg reg) s

/-- BVC (R150, R145): Overflow Clear: branch when V == 0. -/
def execBvc (reg : Reg) (s : State) : Result := branchTo .bvc (s.reg reg) s

/-- BHI (R150, R146): Higher: branch when C == 1 and Z == 0. -/
def execBhi (reg : Reg) (s : State) : Result := branchTo .bhi (s.reg reg) s

/-- BLS (R150, R147): Lower or Same: branch when C == 0 or Z == 1. -/
def execBls (reg : Reg) (s : State) : Result := branchTo .bls (s.reg reg) s

/-- B (R151, R133): Unconditional: branch when true. -/
def execBImm (imm : Word) (s : State) : Result := branchTo .b imm s

/-- BEQ (R151, R134): Equal: branch when Z == 1. -/
def execBeqImm (imm : Word) (s : State) : Result := branchTo .beq imm s

/-- BNE (R151, R135): Not Equal: branch when Z == 0. -/
def execBneImm (imm : Word) (s : State) : Result := branchTo .bne imm s

/-- BLT (R151, R136): Less Than: branch when N == 1. -/
def execBltImm (imm : Word) (s : State) : Result := branchTo .blt imm s

/-- BLE (R151, R137): Less or Equal: branch when N == 1 or Z == 1. -/
def execBleImm (imm : Word) (s : State) : Result := branchTo .ble imm s

/-- BGT (R151, R138): Greater Than: branch when N == 0 and Z == 0. -/
def execBgtImm (imm : Word) (s : State) : Result := branchTo .bgt imm s

/-- BGE (R151, R139): Greater or Equal: branch when N == 0. -/
def execBgeImm (imm : Word) (s : State) : Result := branchTo .bge imm s

/-- BCS (R151, R140): Carry Set: branch when C == 1. -/
def execBcsImm (imm : Word) (s : State) : Result := branchTo .bcs imm s

/-- BCC (R151, R141): Carry Clear: branch when C == 0. -/
def execBccImm (imm : Word) (s : State) : Result := branchTo .bcc imm s

/-- BMI (R151, R142): Minus/Negative: branch when N == 1. -/
def execBmiImm (imm : Word) (s : State) : Result := branchTo .bmi imm s

/-- BPL (R151, R143): Plus/Positive: branch when N == 0. -/
def execBplImm (imm : Word) (s : State) : Result := branchTo .bpl imm s

/-- BVS (R151, R144): Overflow Set: branch when V == 1. -/
def execBvsImm (imm : Word) (s : State) : Result := branchTo .bvs imm s

/-- BVC (R151, R145): Overflow Clear: branch when V == 0. -/
def execBvcImm (imm : Word) (s : State) : Result := branchTo .bvc imm s

/-- BHI (R151, R146): Higher: branch when C == 1 and Z == 0. -/
def execBhiImm (imm : Word) (s : State) : Result := branchTo .bhi imm s

/-- BLS (R151, R147): Lower or Same: branch when C == 0 or Z == 1. -/
def execBlsImm (imm : Word) (s : State) : Result := branchTo .bls imm s

end Sys2Proof.Machine
end

