-- ==== Sys2Proof/Machine/Compare.lean ====
section
/-! DEFINITION. CMP and CMP_I (43_compare_branch.md R129, R130). -/

namespace Sys2Proof.Machine

/-- CMP (R129): FLAGS = R[A] ~ R[B]. -/
def execCmp (a : Reg) (b : Reg) (s : State) : Result := compareWords (s.reg a) (s.reg b) s

/-- CMP_I (R130): FLAGS = R[A] ~ IMM. -/
def execCmpI (a : Reg) (imm : Word) (s : State) : Result := compareWords (s.reg a) imm s

end Sys2Proof.Machine
end

