-- ==== Sys2Proof/Machine/MemoryOps.lean ====
section
/-! DEFINITION. READ, READ_I, WRITE and WRITE_I (44_memory_ops.md R154 to R158). -/

namespace Sys2Proof.Machine

/-- READ (R155): R[DST] = MEM[R[B]]. -/
def execRead (dst : Reg) (b : Reg) (s : State) : Result := loadWord dst (s.reg b) s

/-- READ_I (R156): R[DST] = MEM[IMM]. -/
def execReadI (dst : Reg) (imm : Word) (s : State) : Result := loadWord dst imm s

/-- WRITE (R157): MEM[R[B]] = R[A]. -/
def execWrite (a : Reg) (b : Reg) (s : State) : Result := storeWord (s.reg b) (s.reg a) s

/-- WRITE_I (R158): MEM[IMM] = R[A]. -/
def execWriteI (a : Reg) (imm : Word) (s : State) : Result := storeWord imm (s.reg a) s

end Sys2Proof.Machine
end

