-- ==== Sys2Proof/Machine/Move.lean ====
section
/-! DEFINITION. MOVE and MOVE_I (42_move.md R125 to R127). -/

namespace Sys2Proof.Machine

/-- MOVE (R126): R[DST] = R[SRC]. -/
def execMove (dst : Reg) (b : Reg) (s : State) : Result := writeResult dst (s.reg b) s

/-- MOVE_I (R127): R[DST] = IMM. -/
def execMoveI (dst : Reg) (imm : Word) (s : State) : Result := writeResult dst imm s

end Sys2Proof.Machine
end

