-- ==== Sys2Proof/Machine/Print.lean ====
section
/-! DEFINITION. The four print instructions (45_print.md R159 to R163). -/

namespace Sys2Proof.Machine

/-- PRINT_REG (R160): SCN[R[B]] = R[A]. -/
def execPrintReg (a : Reg) (b : Reg) (s : State) : Result := printCell (s.reg b) .value (s.reg a) s

/-- PRINT_REG_I (R161): SCN[IMM] = R[A]. -/
def execPrintRegI (a : Reg) (imm : Word) (s : State) : Result := printCell imm .value (s.reg a) s

/-- PRINT_CNS (R162): SCN[R[B]] = CONST. -/
def execPrintCns (b : Reg) (c : Byte) (s : State) : Result := printCell (s.reg b) .char (c.setWidth 16) s

/-- PRINT_CNS_I (R163): SCN[IMM] = CONST. -/
def execPrintCnsI (x : Byte) (c : Byte) (s : State) : Result := printCell (x.setWidth 16) .char (c.setWidth 16) s

end Sys2Proof.Machine
end

