-- ==== Sys2Proof/Machine/Dispatch.lean ====
section
/-! DEFINITION. One arm for each instruction, each a direct call of its meaning. -/

namespace Sys2Proof.Machine

def exec (i : Instr) (s : State) : Host.Outcome State Fault Refusal :=
  match i with
  | .aluAnd dst a b => Sys2Proof.Machine.execAluAnd dst a b s
  | .aluOr dst a b => Sys2Proof.Machine.execAluOr dst a b s
  | .aluXor dst a b => Sys2Proof.Machine.execAluXor dst a b s
  | .aluNot dst a => Sys2Proof.Machine.execAluNot dst a s
  | .aluAdd dst a b => Sys2Proof.Machine.execAluAdd dst a b s
  | .aluSub dst a b => Sys2Proof.Machine.execAluSub dst a b s
  | .aluLsl dst a b => Sys2Proof.Machine.execAluLsl dst a b s
  | .aluLsr dst a b => Sys2Proof.Machine.execAluLsr dst a b s
  | .aluBcdl dst a => Sys2Proof.Machine.execAluBcdl dst a s
  | .aluBcdh dst a => Sys2Proof.Machine.execAluBcdh dst a s
  | .aluUmulL dst a b => Sys2Proof.Machine.execAluUmulL dst a b s
  | .aluUmulH dst a b => Sys2Proof.Machine.execAluUmulH dst a b s
  | .aluMulL dst a b => Sys2Proof.Machine.execAluMulL dst a b s
  | .aluMulH dst a b => Sys2Proof.Machine.execAluMulH dst a b s
  | .aluNul0E => Sys2Proof.Machine.execAluNul0E s
  | .aluNul0F => Sys2Proof.Machine.execAluNul0F s
  | .aluAndI dst a imm => Sys2Proof.Machine.execAluAndI dst a imm s
  | .aluOrI dst a imm => Sys2Proof.Machine.execAluOrI dst a imm s
  | .aluXorI dst a imm => Sys2Proof.Machine.execAluXorI dst a imm s
  | .aluNotI dst a => Sys2Proof.Machine.execAluNotI dst a s
  | .aluAddI dst a imm => Sys2Proof.Machine.execAluAddI dst a imm s
  | .aluSubI dst a imm => Sys2Proof.Machine.execAluSubI dst a imm s
  | .aluLslI dst a imm => Sys2Proof.Machine.execAluLslI dst a imm s
  | .aluLsrI dst a imm => Sys2Proof.Machine.execAluLsrI dst a imm s
  | .aluBcdlI dst a => Sys2Proof.Machine.execAluBcdlI dst a s
  | .aluBcdhI dst a => Sys2Proof.Machine.execAluBcdhI dst a s
  | .aluUmulLI dst a imm => Sys2Proof.Machine.execAluUmulLI dst a imm s
  | .aluUmulHI dst a imm => Sys2Proof.Machine.execAluUmulHI dst a imm s
  | .aluMulLI dst a imm => Sys2Proof.Machine.execAluMulLI dst a imm s
  | .aluMulHI dst a imm => Sys2Proof.Machine.execAluMulHI dst a imm s
  | .aluNul0EI => Sys2Proof.Machine.execAluNul0EI s
  | .aluNul0FI => Sys2Proof.Machine.execAluNul0FI s
  | .move dst b => Sys2Proof.Machine.execMove dst b s
  | .moveI dst imm => Sys2Proof.Machine.execMoveI dst imm s
  | .cmp a b => Sys2Proof.Machine.execCmp a b s
  | .cmpI a imm => Sys2Proof.Machine.execCmpI a imm s
  | .branch cond reg => Sys2Proof.Machine.execBranch cond reg s
  | .branchI cond imm => Sys2Proof.Machine.execBranchI cond imm s
  | .read dst b => Sys2Proof.Machine.execRead dst b s
  | .readI dst imm => Sys2Proof.Machine.execReadI dst imm s
  | .write a b => Sys2Proof.Machine.execWrite a b s
  | .writeI a imm => Sys2Proof.Machine.execWriteI a imm s
  | .printReg a b => Sys2Proof.Machine.execPrintReg a b s
  | .printRegI a imm => Sys2Proof.Machine.execPrintRegI a imm s
  | .printCns b c => Sys2Proof.Machine.execPrintCns b c s
  | .printCnsI x c => Sys2Proof.Machine.execPrintCnsI x c s
  | .b reg => Sys2Proof.Machine.execB reg s
  | .beq reg => Sys2Proof.Machine.execBeq reg s
  | .bne reg => Sys2Proof.Machine.execBne reg s
  | .blt reg => Sys2Proof.Machine.execBlt reg s
  | .ble reg => Sys2Proof.Machine.execBle reg s
  | .bgt reg => Sys2Proof.Machine.execBgt reg s
  | .bge reg => Sys2Proof.Machine.execBge reg s
  | .bcs reg => Sys2Proof.Machine.execBcs reg s
  | .bcc reg => Sys2Proof.Machine.execBcc reg s
  | .bmi reg => Sys2Proof.Machine.execBmi reg s
  | .bpl reg => Sys2Proof.Machine.execBpl reg s
  | .bvs reg => Sys2Proof.Machine.execBvs reg s
  | .bvc reg => Sys2Proof.Machine.execBvc reg s
  | .bhi reg => Sys2Proof.Machine.execBhi reg s
  | .bls reg => Sys2Proof.Machine.execBls reg s
  | .bImm imm => Sys2Proof.Machine.execBImm imm s
  | .beqImm imm => Sys2Proof.Machine.execBeqImm imm s
  | .bneImm imm => Sys2Proof.Machine.execBneImm imm s
  | .bltImm imm => Sys2Proof.Machine.execBltImm imm s
  | .bleImm imm => Sys2Proof.Machine.execBleImm imm s
  | .bgtImm imm => Sys2Proof.Machine.execBgtImm imm s
  | .bgeImm imm => Sys2Proof.Machine.execBgeImm imm s
  | .bcsImm imm => Sys2Proof.Machine.execBcsImm imm s
  | .bccImm imm => Sys2Proof.Machine.execBccImm imm s
  | .bmiImm imm => Sys2Proof.Machine.execBmiImm imm s
  | .bplImm imm => Sys2Proof.Machine.execBplImm imm s
  | .bvsImm imm => Sys2Proof.Machine.execBvsImm imm s
  | .bvcImm imm => Sys2Proof.Machine.execBvcImm imm s
  | .bhiImm imm => Sys2Proof.Machine.execBhiImm imm s
  | .blsImm imm => Sys2Proof.Machine.execBlsImm imm s

end Sys2Proof.Machine
end

