-- ==== Sys2Proof/Machine/Step.lean ====
section
/-! DEFINITION. One step of the machine (10_state.md R21): fetch, decode, execute; and the state in which a given word is the
next instruction. -/

namespace Sys2Proof.Machine

/-- The fault of a word the decoder rejects (60_exceptions.md R166, R167). -/
def raiseDecode (e : DecodeError) (s : State) : Result :=
  match e with
  | .illegalInstruction => raise .illegalInstruction s
  | .reservedEncoding => raise .reservedEncoding s

/-- R21: fetch W from IMEM at pc, decode it, and run the rule of the decoded instruction. -/
def step (s : State) : Host.Outcome State Fault Refusal :=
  match decode s.fetch with
  | .ok i => exec i s
  | .error e => raiseDecode e s

/-- The state with a word, numbered as spec/opcode_table.json numbers its bits, stored in IMEM at pc, where the next step
fetches (20_memory.md R44). It stands for the host's loading of the program image (notes/assumptions/6.md). -/
def State.withFetchWord (s : State) (nbits w : Nat) : State :=
  { s with imem := s.imem.write s.pc.toNat (tableWord nbits w) }

end Sys2Proof.Machine
end

