-- ==== Sys2Proof/Machine/Assembler.lean ====
section
/-! DEFINITION. From an assembly statement to its instruction (30_encoding.md R75 to R80), with the statement already split into
its mnemonic and its operands: the text, labels, directives and the file format are the assembler as a tool, which the spec
leaves out (00_scope.md R5 item (e), notes/assumptions/15.md). -/

namespace Sys2Proof.Machine

/-- The mnemonics (R76 to R78): a branch is spelled by its condition, and there is no spelling for condition 0xF. -/
inductive Mnemonic where
  | and | or | xor | not | add | sub | lsl | lsr | bcdl | bcdh | umulL | umulH | mulL | mulH | nul0E | nul0F
  | mov | cmp | branch (cond : Cond) | read | write | print
deriving DecidableEq, Repr

/-- An operand (R75): a register, a number, or a character by its code. -/
inductive AsmOperand where
  | reg (r : Reg)
  | num (k : Int)
  | chr (code : Nat)
deriving DecidableEq, Repr

/-- A number as a 16-bit immediate: -32768 to 65535, a negative one as its two's-complement pattern (R79 items (a), (e);
41_alu_immediate.md R108). -/
def asmImm (k : Int) : Option Word :=
  if -32768 ≤ k ∧ k ≤ 65535 then some (BitVec.ofInt 16 k) else none

/-- A character code, 0 to 255 (R79 items (b), (e)). -/
def asmChar (code : Nat) : Option Byte :=
  if code ≤ 255 then some (BitVec.ofNat 8 code) else none

/-- A screen position of `PRINT imm, 'c'`, 0 to 255 (R76, R79 item (e)). -/
def asmPos (k : Int) : Option Byte :=
  if 0 ≤ k ∧ k ≤ 255 then some (BitVec.ofInt 8 k) else none

/-- The instruction of a statement, `none` for an assembly error (R76 to R79). The kinds of the operands select the opcode;
NOT, BCDL, BCDH, NUL0E and NUL0F take their register-format opcodes (R79 items (c), (d)). -/
def assemble (m : Mnemonic) (operands : List AsmOperand) : Option Instr :=
  match m, operands with
  | .and, [.reg d, .reg a, .reg b] => some (.aluAnd d a b)
  | .or, [.reg d, .reg a, .reg b] => some (.aluOr d a b)
  | .xor, [.reg d, .reg a, .reg b] => some (.aluXor d a b)
  | .add, [.reg d, .reg a, .reg b] => some (.aluAdd d a b)
  | .sub, [.reg d, .reg a, .reg b] => some (.aluSub d a b)
  | .lsl, [.reg d, .reg a, .reg b] => some (.aluLsl d a b)
  | .lsr, [.reg d, .reg a, .reg b] => some (.aluLsr d a b)
  | .umulL, [.reg d, .reg a, .reg b] => some (.aluUmulL d a b)
  | .umulH, [.reg d, .reg a, .reg b] => some (.aluUmulH d a b)
  | .mulL, [.reg d, .reg a, .reg b] => some (.aluMulL d a b)
  | .mulH, [.reg d, .reg a, .reg b] => some (.aluMulH d a b)
  | .and, [.reg d, .reg a, .num k] => (asmImm k).map (Instr.aluAndI d a)
  | .or, [.reg d, .reg a, .num k] => (asmImm k).map (Instr.aluOrI d a)
  | .xor, [.reg d, .reg a, .num k] => (asmImm k).map (Instr.aluXorI d a)
  | .add, [.reg d, .reg a, .num k] => (asmImm k).map (Instr.aluAddI d a)
  | .sub, [.reg d, .reg a, .num k] => (asmImm k).map (Instr.aluSubI d a)
  | .lsl, [.reg d, .reg a, .num k] => (asmImm k).map (Instr.aluLslI d a)
  | .lsr, [.reg d, .reg a, .num k] => (asmImm k).map (Instr.aluLsrI d a)
  | .umulL, [.reg d, .reg a, .num k] => (asmImm k).map (Instr.aluUmulLI d a)
  | .umulH, [.reg d, .reg a, .num k] => (asmImm k).map (Instr.aluUmulHI d a)
  | .mulL, [.reg d, .reg a, .num k] => (asmImm k).map (Instr.aluMulLI d a)
  | .mulH, [.reg d, .reg a, .num k] => (asmImm k).map (Instr.aluMulHI d a)
  | .not, [.reg d] => some (.aluNot d d)
  | .bcdl, [.reg d, .reg a] => some (.aluBcdl d a)
  | .bcdh, [.reg d, .reg a] => some (.aluBcdh d a)
  | .nul0E, [] => some .aluNul0E
  | .nul0F, [] => some .aluNul0F
  | .mov, [.reg d, .reg s] => some (.move d s)
  | .mov, [.reg d, .num k] => (asmImm k).map (Instr.moveI d)
  | .cmp, [.reg a, .reg b] => some (.cmp a b)
  | .cmp, [.reg a, .num k] => (asmImm k).map (Instr.cmpI a)
  | .branch .reservedF, _ => none
  | .branch c, [.reg r] => some (branchOf c r)
  | .branch c, [.num k] => (asmImm k).map (branchImmOf c)
  | .read, [.reg d, .reg b] => some (.read d b)
  | .read, [.reg d, .num k] => (asmImm k).map (Instr.readI d)
  | .write, [.reg a, .reg b] => some (.write a b)
  | .write, [.reg a, .num k] => (asmImm k).map (Instr.writeI a)
  | .print, [.reg a, .reg b] => some (.printReg a b)
  | .print, [.num k, .reg a] => (asmImm k).map (Instr.printRegI a)
  | .print, [.reg b, .chr c] => (asmChar c).map (Instr.printCns b)
  | .print, [.num k, .chr c] => (asmPos k).bind (fun x => (asmChar c).map (Instr.printCnsI x))
  | _, _ => none

end Sys2Proof.Machine
end

