-- ==== Sys2Proof/Machine/Rom.lean ====
section
/-! DEFINITION. What the spec says of the Machine Code Translator ROM: the layout of its word (30_encoding.md R81, R82) and the
low six bits it derives for each defined opcode (R83). It is part of the decoder, no instruction reads or writes it (10_state.md
R30), and the step does not use it: R83 says a model should not contain the ROM, so this is documentation that is checked
against the decoder (notes/assumptions/14.md). Bits 6 to 15 of a word are not given for any opcode. -/

namespace Sys2Proof.Machine

/-- A ROM word (R81). -/
abbrev RomWord := BitVec 16

/-- Bit 15, TRY_WRITE (R81). -/
def romTryWrite (w : RomWord) : Bool := w.getLsbD 15

/-- Bit 14, TRY_READ_B (R81). -/
def romTryReadB (w : RomWord) : Bool := w.getLsbD 14

/-- Bit 13, TRY_READ_A (R81). -/
def romTryReadA (w : RomWord) : Bool := w.getLsbD 13

/-- Bit 12, OVERRIDE_B (R81). -/
def romOverrideB (w : RomWord) : Bool := w.getLsbD 12

/-- Bit 11, OVERRIDE_WRITE (R81). -/
def romOverrideWrite (w : RomWord) : Bool := w.getLsbD 11

/-- Bit 5, IMMEDIATE (R81). -/
def romImmediate (w : RomWord) : Bool := w.getLsbD 5

/-- Bits 4 to 1, TYPE (R81). -/
def romTypeCode (w : RomWord) : BitVec 4 := w.extractLsb' 1 4

/-- Bit 0, VALID (R81). -/
def romValid (w : RomWord) : Bool := w.getLsbD 0

/-- The listed values of TYPE (R82). -/
inductive RomType where
  | alu | fpu | move | cmp | branch | memory | printReg | printConst | service
deriving DecidableEq, Repr

/-- The 4-bit code of a type (R82). -/
def RomType.code : RomType → BitVec 4
  | .alu => 0 | .fpu => 1 | .move => 2 | .cmp => 3 | .branch => 4 | .memory => 5 | .printReg => 6 | .printConst => 7
  | .service => 8

/-- The type of a code; values 9 to 15 are not listed (R82). -/
def RomType.ofCode (c : BitVec 4) : Option RomType :=
  [RomType.alu, .fpu, .move, .cmp, .branch, .memory, .printReg, .printConst, .service].find? (fun t => t.code == c)

/-- The type of an opcode, from the section of the tables it is listed in (R83). -/
def romTypeOf : Opcode → RomType
  | .move | .moveI => .move
  | .cmp | .cmpI => .cmp
  | .branch | .branchI => .branch
  | .read | .readI | .write | .writeI => .memory
  | .printReg | .printRegI => .printReg
  | .printCns | .printCnsI => .printConst
  | _ => .alu

/-- IMMEDIATE is set for formats I and JI (R83). -/
def immediateVariant (o : Opcode) : Bool :=
  match o.format with
  | .i | .ji => true
  | .r | .j => false

/-- The low six bits `IMMEDIATE<<5 | TYPE<<1 | VALID` of a defined opcode's word; nothing is given for the reserved four (R83). -/
def romLowBits (o : Opcode) : Option (BitVec 6) :=
  if o.reserved then none
  else some ((BitVec.ofBool (immediateVariant o)).setWidth 6 <<< 5 ||| (romTypeOf o).code.setWidth 6 <<< 1 ||| 1)

end Sys2Proof.Machine
end

