-- ==== Sys2Proof/Machine/Loader.lean ====
section
/-! DEFINITION. What the host does before a run (70_reset_and_hazards.md R184, R187): it puts the program image into IMEM and
resets the machine. No step of the machine does either. -/

namespace Sys2Proof.Machine

/-- A program image: the edition of the opcode assignments it was built for, and its instructions, instruction k for address k
(70_reset_and_hazards.md R184, R190). -/
structure Image where
  edition : String
  words : List InstrWord
deriving DecidableEq, Repr

/-- The canonical IMEM that holds the given words from an address on and the filler everywhere else (R184). -/
def imemFrom : Nat → List InstrWord → InstrMemory
  | _, [] => []
  | k, w :: rest => if w = Config.imemFiller then imemFrom (k + 1) rest else (k, w) :: imemFrom (k + 1) rest

/-- Place an image in IMEM (R184). An image for another edition is refused (R190), as is one longer than IMEM. -/
def loadImage (img : Image) (s : State) : Result :=
  if img.edition ≠ Config.edition then .refused (.wrongEdition img.edition)
  else if img.words.length ≤ Config.imemWords then .next { s with imem := imemFrom 0 img.words }
  else .refused (.imageTooLong img.words.length)

/-- The state a run of an image starts in (R183), with the model's choice of what the spec leaves unspecified. A claim about a
program speaks of every `Initial` state instead (Safety.lean). -/
def boot (img : Image) : Result := loadImage img State.reset

end Sys2Proof.Machine
end

