-- ==== Sys2Proof/Safety.lean ====
section
/-! DEFINITION. The terms in which a claim about runs is stated: where a run starts, where it can get to, when it has ended, and
that it never faults (60_exceptions.md R165, 70_reset_and_hazards.md R183, R186). -/

namespace Sys2Proof.Machine

/-- The states a run can start in (70_reset_and_hazards.md R183): pc at RESET_PC, and every register, flag, MEM word and SCN cell
anything at all. A claim about a program holds of every initial state that holds its image.
DESIGN CHOICE (notes/assumptions/5.md): the spec does not say what the kept list of screen writes holds when a run starts;
`scnLog` is left free here, any earlier events, so the list of a run is not `scnLog` but `screenWrites`. Safe. -/
def Initial (s : State) : Prop := s.pc = Config.resetPc ∧ s.wf = true

/-- `Steps s t`: some number of steps, none of which stops, leads from s to t. -/
inductive Steps : State → State → Prop where
  | refl (s : State) : Steps s s
  | tail {s t u : State} (h : Steps s t) (hs : step t = .next u) : Steps s u

/-- The screen writes of a run from s to t, in the order executed: the events after those s already listed. It is this list,
and not the whole of `scnLog`, that 10_state.md R32 calls a function of the run and 70_reset_and_hazards.md R187 counts among
the observable results (notes/assumptions/5.md). From State.reset the two are the same. -/
def screenWrites (s t : State) : List ScnEvent := t.scnLog.drop s.scnLog.length

/-- The run from s never faults and never refuses (60_exceptions.md R165: a claim about a program must show that no run
reaches a fault). -/
def NeverStops (s : State) : Prop := ∀ t, Steps s t → ∃ u, step t = .next u

/-- The run has ended (70_reset_and_hazards.md R186): IMEM[pc] is the word `0x45 | pc<<16`, the unconditional `B k` at its own
address k. -/
def finished (s : State) : Bool := s.fetch == (0x45 : InstrWord) ||| s.pc.setWidth 32 <<< 16

/-- The run from s ends in t (70_reset_and_hazards.md R186): t is reached and has ended. -/
def EndsIn (s t : State) : Prop := Steps s t ∧ finished t = true

end Sys2Proof.Machine
end

