-- ==== Sys2Proof/Certificates/Slice0/Obligations.lean ====
section
/-! DEFINITION. The statements for the provers, made from the numbered rules of spec/. First the words they share, then the
statements by subject. A statement speaks of every state, also of states no run reaches. -/

namespace Sys2Proof.Claims

open Sys2Proof.Machine

/-! ## Frames: what a next state t keeps of s -/

def SameRegs (s t : State) : Prop := ∀ r, t.reg r = s.reg r

def SameMem (s t : State) : Prop := ∀ k, t.mem.read k = s.mem.read k

def SameScreen (s t : State) : Prop := (∀ k, t.scn.read k = s.scn.read k) ∧ t.scnLog = s.scnLog

def SameImem (s t : State) : Prop := ∀ k, t.imem.read k = s.imem.read k

/-- `pc <- trunc_16(pc + 1)` (10_state.md R19). -/
def PcStepped (s t : State) : Prop := t.pc = BitVec.ofNat 16 (s.pc.toNat + 1)

/-- From every state the instruction completes: it gives one register the value, steps the pc, and changes nothing else. -/
def GivesRegister (i : Instr) (d : Reg) (value : State → Word) : Prop :=
  ∀ s, ∃ t, exec i s = .next t ∧ t.reg d = value s ∧ (∀ r, r ≠ d → t.reg r = s.reg r) ∧ PcStepped s t ∧
    t.flags = s.flags ∧ SameMem s t ∧ SameScreen s t ∧ SameImem s t

/-- From every state the instruction completes: it gives all four flags these values, steps the pc, and changes nothing else. -/
def GivesFlags (i : Instr) (z n c v : State → Bool) : Prop :=
  ∀ s, ∃ t, exec i s = .next t ∧ t.flags.z = z s ∧ t.flags.n = n s ∧ t.flags.c = c s ∧ t.flags.v = v s ∧ PcStepped s t ∧
    SameRegs s t ∧ SameMem s t ∧ SameScreen s t ∧ SameImem s t

/-- From every state the instruction completes: it goes to the target if the condition holds of the flags, else to pc + 1, and
changes nothing else. -/
def Branches (i : Instr) (holds : Flags → Bool) (target : State → Word) : Prop :=
  ∀ s, ∃ t, exec i s = .next t ∧
    (holds s.flags = true → t.pc = target s) ∧ (holds s.flags = false → PcStepped s t) ∧
    t.flags = s.flags ∧ SameRegs s t ∧ SameMem s t ∧ SameScreen s t ∧ SameImem s t

/-- A load: with an address below 256 it completes, giving the register the word of MEM there; from 256 on it faults. -/
def Loads (i : Instr) (d : Reg) (ea : State → Word) : Prop :=
  ∀ s, ((ea s).toNat < 256 → ∃ t, exec i s = .next t ∧ t.reg d = s.mem.read (ea s).toNat ∧
      (∀ r, r ≠ d → t.reg r = s.reg r) ∧ PcStepped s t ∧ t.flags = s.flags ∧ SameMem s t ∧ SameScreen s t ∧ SameImem s t) ∧
    (256 ≤ (ea s).toNat → exec i s = .fault (.addressOutOfRange s.pc s.fetch (ea s)))

/-- A store: with an address below 256 it completes, replacing the word of MEM there and no other; from 256 on it faults. -/
def Stores (i : Instr) (ea value : State → Word) : Prop :=
  ∀ s, ((ea s).toNat < 256 → ∃ t, exec i s = .next t ∧ t.mem.read (ea s).toNat = value s ∧
      (∀ k, k ≠ (ea s).toNat → t.mem.read k = s.mem.read k) ∧ PcStepped s t ∧ t.flags = s.flags ∧ SameRegs s t ∧
      SameScreen s t ∧ SameImem s t) ∧
    (256 ≤ (ea s).toNat → exec i s = .fault (.addressOutOfRange s.pc s.fetch (ea s)))

/-- From every state the instruction completes: exactly one ScnWrite replaces the cell at the position, the pc steps, and nothing
else changes. -/
def Prints (i : Instr) (pos : State → Word) (kind : ScnKind) (value : State → Word) : Prop :=
  ∀ s, ∃ t, exec i s = .next t ∧ t.scn.read (pos s).toNat = some ⟨kind, value s⟩ ∧
    (∀ k, k ≠ (pos s).toNat → t.scn.read k = s.scn.read k) ∧ t.scnLog = s.scnLog ++ [⟨pos s, kind, value s⟩] ∧
    PcStepped s t ∧ t.flags = s.flags ∧ SameRegs s t ∧ SameMem s t ∧ SameImem s t

/-! ## Encodings as numbers, and pad bits -/

/-- The register number n of Xn (10_state.md R14). -/
def number (r : Reg) : Nat := r.num.toNat

/-- The opcode and the bits that matter of each row of spec/opcode_table.json, from its `encoding` column: 0 at each `u`. -/
def significantBits : List (Byte × InstrWord) :=
  [(0x00, 0x000FFFFF), (0x01, 0x000FFFFF), (0x02, 0x000FFFFF), (0x03, 0x0008FFFF), (0x04, 0x000FFFFF), (0x05, 0x000FFFFF),
   (0x06, 0x000FFFFF), (0x07, 0x000FFFFF), (0x08, 0x0008FFFF), (0x09, 0x0008FFFF), (0x0A, 0x000FFFFF), (0x0B, 0x000FFFFF),
   (0x0C, 0x000FFFFF), (0x0D, 0x000FFFFF), (0x0E, 0x000000FF), (0x0F, 0x000000FF), (0x10, 0xFFFFFFFF), (0x11, 0xFFFFFFFF),
   (0x12, 0xFFFFFFFF), (0x13, 0x0000FFFF), (0x14, 0xFFFFFFFF), (0x15, 0xFFFFFFFF), (0x16, 0xFFFFFFFF), (0x17, 0xFFFFFFFF),
   (0x18, 0x0000FFFF), (0x19, 0x0000FFFF), (0x1A, 0xFFFFFFFF), (0x1B, 0xFFFFFFFF), (0x1C, 0xFFFFFFFF), (0x1D, 0xFFFFFFFF),
   (0x1E, 0x000000FF), (0x1F, 0x000000FF), (0x40, 0x000F8FFF), (0x41, 0xFFFF8FFF), (0x42, 0x000FF8FF), (0x43, 0xFFFFF8FF),
   (0x44, 0x000FFFFF), (0x45, 0xFFFFFFFF), (0x46, 0x000F8FFF), (0x47, 0xFFFF8FFF), (0x48, 0x000FF8FF), (0x49, 0xFFFFF8FF),
   (0x4A, 0x000FF8FF), (0x4B, 0xFFFFF8FF), (0x4C, 0xFF0F88FF), (0x4D, 0xFFFF88FF)]

/-- The unused bits and the unmentioned fields of an opcode's words do not reach the decoder's answer (30_encoding.md R63). -/
def IgnoresUnused (op : Byte) : Prop :=
  ∀ p ∈ significantBits, p.1 = op → ∀ w : InstrWord, opcodeByte w = op → decode (w &&& p.2) = decode w

/-- `W = op | d<<8 | a<<12 | b<<16` (30_encoding.md R56), and a set pad bit makes the step raise ReservedEncoding (R62, R167);
unused bits are ignored. -/
def FormatR (op : Byte) (i : Instr) (d a b : Nat) : Prop :=
  (encode i).toNat = op.toNat + d * 2 ^ 8 + a * 2 ^ 12 + b * 2 ^ 16 ∧ IgnoresUnused op ∧
  ∀ s, opcodeByte s.fetch = op → s.fetch &&& 0x00088800 ≠ 0 → step s = .fault (.reservedEncoding s.pc s.fetch)

/-- `W = op | d<<8 | a<<12 | imm<<16` (30_encoding.md R57), and a set pad bit makes the step raise ReservedEncoding;
unused bits are ignored. -/
def FormatI (op : Byte) (i : Instr) (d a imm : Nat) : Prop :=
  (encode i).toNat = op.toNat + d * 2 ^ 8 + a * 2 ^ 12 + imm * 2 ^ 16 ∧ IgnoresUnused op ∧
  ∀ s, opcodeByte s.fetch = op → s.fetch &&& 0x00008800 ≠ 0 → step s = .fault (.reservedEncoding s.pc s.fetch)

/-- `W = 0x44 | cond<<8 | r<<16` (30_encoding.md R58). -/
def FormatJ (i : Instr) (cond r : Nat) : Prop :=
  (encode i).toNat = 0x44 + cond * 2 ^ 8 + r * 2 ^ 16 ∧ IgnoresUnused 0x44

/-- `W = 0x45 | cond<<8 | imm<<16` (30_encoding.md R59). -/
def FormatJI (i : Instr) (cond imm : Nat) : Prop := (encode i).toNat = 0x45 + cond * 2 ^ 8 + imm * 2 ^ 16

/-- The opcodes of the 42 defined instructions (30_encoding.md R69, R71, R72). -/
def Defined (op : Byte) : Prop := op ≤ 0x0D ∨ (0x10 ≤ op ∧ op ≤ 0x1D) ∨ (0x40 ≤ op ∧ op ≤ 0x4D)

/-- The zero mask of a defined opcode (30_encoding.md R74, with the formats of R69). -/
def zeroMask (op : Byte) : InstrWord :=
  if op = 0x44 then 0x0008F000
  else if op = 0x45 then 0x0000F000
  else if op ≤ 0x0D ∨ (0x40 ≤ op ∧ op.getLsbD 0 = false) then 0x00088800
  else 0x00008800

/-- The effective address of the memory instruction in a word (44_memory_ops.md R154): x[B] in the even opcodes READ and WRITE,
IMM in the odd READ_I and WRITE_I. -/
def effectiveAddress (s : State) : Word :=
  if (opcodeByte s.fetch).getLsbD 0 then s.fetch.extractLsb' 16 16 else s.reg (Reg.ofNum (s.fetch.extractLsb' 16 3))

/-- The position a print instruction writes (45_print.md R160 to R163): x[B] in the even opcodes PRINT_REG and PRINT_CNS, IMM in
PRINT_REG_I, and zext(X) in PRINT_CNS_I. -/
def printedPosition (s : State) : Word :=
  if opcodeByte s.fetch = 0x4B then s.fetch.extractLsb' 16 16
  else if opcodeByte s.fetch = 0x4D then (s.fetch.extractLsb' 16 8).setWidth 16
  else s.reg (Reg.ofNum (s.fetch.extractLsb' 16 3))

/-- The cell a print instruction writes (45_print.md R160 to R163): (Value, x[A]) in PRINT_REG and PRINT_REG_I, (Char, zext(CONST))
in PRINT_CNS and PRINT_CNS_I. -/
def printedCell (s : State) : ScnCell :=
  if opcodeByte s.fetch ≤ 0x4B then ⟨.value, s.reg (Reg.ofNum (s.fetch.extractLsb' 12 3))⟩
  else ⟨.char, (s.fetch.extractLsb' 24 8).setWidth 16⟩

/-- Decimal digit k of a word read as unsigned (40_alu_register.md R97). -/
def digit (k : Nat) (w : Word) : Nat := w.toNat / 10 ^ k % 10

/-- The state with other flags. -/
def withFlags (f : Flags) (s : State) : State := { s with flags := f }

/-- The state with another screen. -/
def withScreen (c : Screen) (l : List ScnEvent) (s : State) : State := { s with scn := c, scnLog := l }

/-! ## Assembly statements (30_encoding.md R75 to R79) and ROM words (R83) -/

/-- The mnemonics of R76 with three operands, each with its register and its immediate instruction. -/
def threeOperandRows : List (Mnemonic × (Reg → Reg → Reg → Instr) × (Reg → Reg → Word → Instr)) :=
  [(.and, Instr.aluAnd, Instr.aluAndI), (.or, Instr.aluOr, Instr.aluOrI), (.xor, Instr.aluXor, Instr.aluXorI),
   (.add, Instr.aluAdd, Instr.aluAddI), (.sub, Instr.aluSub, Instr.aluSubI), (.lsl, Instr.aluLsl, Instr.aluLslI),
   (.lsr, Instr.aluLsr, Instr.aluLsrI), (.umulL, Instr.aluUmulL, Instr.aluUmulLI), (.umulH, Instr.aluUmulH, Instr.aluUmulHI),
   (.mulL, Instr.aluMulL, Instr.aluMulLI), (.mulH, Instr.aluMulH, Instr.aluMulHI)]

/-- The mnemonics of R76 with two operands, but for PRINT, each with its register and its immediate instruction. -/
def twoOperandRows : List (Mnemonic × (Reg → Reg → Instr) × (Reg → Word → Instr)) :=
  [(.mov, Instr.move, Instr.moveI), (.cmp, Instr.cmp, Instr.cmpI), (.read, Instr.read, Instr.readI),
   (.write, Instr.write, Instr.writeI)]

/-- The fifteen branch mnemonics of R78, each with its register and its immediate instruction. -/
def branchRows : List (Cond × (Reg → Instr) × (Word → Instr)) :=
  [(.b, Instr.b, Instr.bImm), (.beq, Instr.beq, Instr.beqImm), (.bne, Instr.bne, Instr.bneImm), (.blt, Instr.blt, Instr.bltImm),
   (.ble, Instr.ble, Instr.bleImm), (.bgt, Instr.bgt, Instr.bgtImm), (.bge, Instr.bge, Instr.bgeImm),
   (.bcs, Instr.bcs, Instr.bcsImm), (.bcc, Instr.bcc, Instr.bccImm), (.bmi, Instr.bmi, Instr.bmiImm),
   (.bpl, Instr.bpl, Instr.bplImm), (.bvs, Instr.bvs, Instr.bvsImm), (.bvc, Instr.bvc, Instr.bvcImm),
   (.bhi, Instr.bhi, Instr.bhiImm), (.bls, Instr.bls, Instr.blsImm)]

/-- A statement that takes a number as a 16-bit immediate: it assembles with -32768 to 65535, to trunc_16 of the number, and with
no other number (R79 items (a), (e)). -/
def TakesImmediate (statement : Int → Option Instr) (instr : Word → Instr) : Prop :=
  ∀ k : Int, (-32768 ≤ k → k ≤ 65535 → statement k = some (instr (BitVec.ofNat 16 (k % 65536).toNat))) ∧
    (k < -32768 ∨ 65535 < k → statement k = none)

/-- The three kinds of operand (R75). -/
inductive OperandKind where
  | reg | num | chr
deriving DecidableEq, Repr

def kindOf : AsmOperand → OperandKind
  | .reg _ => .reg
  | .num _ => .num
  | .chr _ => .chr

/-- The kinds of operands each mnemonic has a row for in R76. -/
def operandKinds : Mnemonic → List (List OperandKind)
  | .not => [[.reg]]
  | .bcdl | .bcdh => [[.reg, .reg]]
  | .nul0E | .nul0F => [[]]
  | .mov | .cmp | .read | .write => [[.reg, .reg], [.reg, .num]]
  | .branch _ => [[.reg], [.num]]
  | .print => [[.reg, .reg], [.num, .reg], [.reg, .chr], [.num, .chr]]
  | _ => [[.reg, .reg, .reg], [.reg, .reg, .num]]

/-- The table of R83: the first and the last opcode of a row and the low six bits of their ROM words. -/
def romTable : List (Byte × Byte × BitVec 6) :=
  [(0x00, 0x0D, 0x01), (0x10, 0x1D, 0x21), (0x40, 0x40, 0x05), (0x41, 0x41, 0x25), (0x42, 0x42, 0x07), (0x43, 0x43, 0x27),
   (0x44, 0x44, 0x09), (0x45, 0x45, 0x29), (0x46, 0x46, 0x0B), (0x48, 0x48, 0x0B), (0x47, 0x47, 0x2B), (0x49, 0x49, 0x2B),
   (0x4A, 0x4A, 0x0D), (0x4B, 0x4B, 0x2D), (0x4C, 0x4C, 0x0F), (0x4D, 0x4D, 0x2F)]

/-- The low six ROM bits the model derives for an opcode byte. -/
def romBitsOf (op : Byte) : Option (BitVec 6) := (Opcode.ofByte op).bind romLowBits

end Sys2Proof.Claims

open Sys2Proof Sys2Proof.Machine Sys2Proof.Claims

/-! ## Decoding and encoding -/

/-- Decode after encode is the identity on well-formed instructions (R56 to R59, R69, R74). -/
def Obligations.DecodeInvertsEncode : Prop :=
  ∀ i : Instr, i.wellFormed = true → decode (encode i) = .ok i

/-- Encode after decode restores every bit that matters (R63, R69, R74). The clause that the decoded instruction is well formed,
so that a branch word is named by its mnemonic row wherever it has one, is the model's choice of name
(notes/assumptions/8.md): the spec lets a decoder use either set of rows. -/
def Obligations.DecodedWordIsItsEncoding : Prop :=
  ∀ (w : InstrWord) (i : Instr), decode w = .ok i →
    i.wellFormed = true ∧ ∀ p ∈ significantBits, p.1 = opcodeByte w → encode i = w &&& p.2

/-- R63, over the table's `u` positions. -/
def Obligations.UnusedBitsAreIgnored : Prop :=
  (∀ p ∈ significantBits, ∀ w : InstrWord, opcodeByte w = p.1 → decode (w &&& p.2) = decode w) ∧
  (∀ p ∈ significantBits, ∀ i : Instr, i.opcode.byte = p.1 → encode i &&& ~~~p.2 = 0)

/-- Words of 95_test_vectors.md section 1. -/
def Obligations.SampleWordsDecode : Prop :=
  decode 0x00021004 = .ok (.aluAdd .x0 .x1 .x2) ∧ decode 0xFFFE101C = .ok (.aluMulLI .x0 .x1 0xFFFE) ∧
  decode 0x00010040 = .ok (.move .x0 .x1) ∧ decode 0x002A0043 = .ok (.cmpI .x0 42) ∧
  decode 0x00000144 = .ok (.beq .x0) ∧ decode 0x00640245 = .ok (.bneImm 100) ∧
  decode 0x00010048 = .ok (.write .x0 .x1) ∧ decode 0x4805004D = .ok (.printCnsI 5 0x48)

/-- The 30 mnemonic rows refine BRANCH and BRANCH_I (R78; the choice of name is notes/assumptions/8.md). -/
def Obligations.BranchRowsShareOneMeaning : Prop :=
  ∀ (c : Cond) (r : Reg) (imm : Word), c ≠ .reservedF →
    encode (branchOf c r) = encode (.branch c r) ∧ decode (encode (.branch c r)) = .ok (branchOf c r) ∧
    (∀ s, exec (branchOf c r) s = exec (.branch c r) s) ∧
    encode (branchImmOf c imm) = encode (.branchI c imm) ∧ decode (encode (.branchI c imm)) = .ok (branchImmOf c imm) ∧
    (∀ s, exec (branchImmOf c imm) s = exec (.branchI c imm) s)

/-! ## A step and its faults -/

/-- R21. -/
def Obligations.StepRunsDecodedInstruction : Prop :=
  ∀ (s : State) (i : Instr), i.wellFormed = true → decode (s.imem.read s.pc.toNat) = .ok i → step s = exec i s

/-- withFetchWord stands for the loader (notes/assumptions/6.md); the fetch is R44. -/
def Obligations.FetchWordIsTheNextInstruction : Prop :=
  ∀ (s : State) (w : Nat), (s.withFetchWord 32 w).fetch = BitVec.ofNat 32 w ∧
    (∀ k, k ≠ s.pc.toNat → (s.withFetchWord 32 w).imem.read k = s.imem.read k) ∧
    { s.withFetchWord 32 w with imem := s.imem } = s

/-- R165; a fault carries no state, and Host.Core.run stops at it. -/
def Obligations.StepEndsInNextOrFault : Prop :=
  ∀ s : State, (∃ t, step s = .next t) ∨
    ((step s = .fault (.illegalInstruction s.pc s.fetch) ∨ step s = .fault (.reservedEncoding s.pc s.fetch) ∨
      step s = .fault (.reservedCondition s.pc s.fetch) ∨
      (∃ addr, step s = .fault (.addressOutOfRange s.pc s.fetch addr)) ∨
      (∃ pos, step s = .fault (.screenOutOfRange s.pc s.fetch pos))) ∧
     ∃ f, ∀ n, Sys2Proof.core.run (n + 1) s = .fault f ∧ step s = .fault f)

/-- R166. -/
def Obligations.IllegalInstructionExactly : Prop :=
  ∀ (s : State) (p : Word) (w : InstrWord), step s = .fault (.illegalInstruction p w) ↔
    p = s.pc ∧ w = s.fetch ∧ ((0x20 ≤ opcodeByte w ∧ opcodeByte w ≤ 0x3F) ∨ 0x4E ≤ opcodeByte w ∨ opcodeByte w = 0x0E ∨
      opcodeByte w = 0x0F ∨ opcodeByte w = 0x1E ∨ opcodeByte w = 0x1F)

/-- R167. -/
def Obligations.ReservedEncodingExactly : Prop :=
  ∀ (s : State) (p : Word) (w : InstrWord), step s = .fault (.reservedEncoding p w) ↔
    p = s.pc ∧ w = s.fetch ∧ Defined (opcodeByte w) ∧ w &&& zeroMask (opcodeByte w) ≠ 0

/-- R168, R148; the pad bits are tested first (R172). -/
def Obligations.ReservedConditionExactly : Prop :=
  ∀ (s : State) (p : Word) (w : InstrWord), step s = .fault (.reservedCondition p w) ↔
    p = s.pc ∧ w = s.fetch ∧ (opcodeByte w = 0x44 ∨ opcodeByte w = 0x45) ∧ w &&& zeroMask (opcodeByte w) = 0 ∧
      w.extractLsb' 8 4 = 0xF

/-- R169, under MEM_ADDR_MODE = fault. -/
def Obligations.AddressOutOfRangeExactly : Prop :=
  ∀ (s : State) (p : Word) (w : InstrWord) (addr : Word), step s = .fault (.addressOutOfRange p w addr) ↔
    p = s.pc ∧ w = s.fetch ∧ 0x46 ≤ opcodeByte w ∧ opcodeByte w ≤ 0x49 ∧ w &&& zeroMask (opcodeByte w) = 0 ∧
      addr = effectiveAddress s ∧ 256 ≤ addr.toNat

/-- R170. -/
def Obligations.ScreenOutOfRangeNever : Prop :=
  Config.scnSize = 65536 ∧ ∀ (s : State) (p : Word) (w : InstrWord) (pos : Word), step s ≠ .fault (.screenOutOfRange p w pos)

/-! ## Whole-machine rules -/

/-- The canonical form is an invariant of the step from every state, not only along runs. -/
def Obligations.StepKeepsCanonicalForm : Prop :=
  ∀ s t : State, s.wf = true → step s = .next t → t.wf = true

/-- R33 for the pc; that no program is loaded is notes/assumptions/6.md. -/
def Obligations.ResetIsCanonical : Prop :=
  State.reset.wf = true ∧ State.reset.pc = 0 ∧ ∀ k, State.reset.imem.read k = 0xFFFFFFFF

/-- What the canonical form is for. That the spaces are sparse lists in this form is the model's choice, not a rule of the spec:
notes/assumptions/3.md (MEM, whose contents are compared entry by entry and not by what is read, since an unwritten word reads as a
free value), 4.md (SCN), 6.md (IMEM) and 11.md (entries of whole words). -/
def Obligations.EqualSpacesAreEqualData : Prop :=
  (∀ m n : Memory, m.wf = true → n.wf = true → (∀ k, Cells.lookup m k = Cells.lookup n k) → m = n) ∧
  (∀ c d : Screen, c.wf = true → d.wf = true → (∀ k, c.read k = d.read k) → c = d) ∧
  (∀ m n : InstrMemory, m.wf = true → n.wf = true → (∀ k, m.read k = n.read k) → m = n)

/-- R45. -/
def Obligations.NoStepWritesImem : Prop :=
  ∀ s t : State, step s = .next t → t.imem = s.imem ∧ SameImem s t

/-- R19. -/
def Obligations.PcAdvancesUnlessBranchTaken : Prop :=
  ∀ s t : State, step s = .next t →
    ((opcodeByte s.fetch ≠ 0x44 ∧ opcodeByte s.fetch ≠ 0x45 ∨
        condHolds (Cond.ofCode (s.fetch.extractLsb' 8 4)) s.flags = some false) →
      PcStepped s t ∧ (s.pc = 0xFFFF → t.pc = 0)) ∧
    (opcodeByte s.fetch = 0x44 → condHolds (Cond.ofCode (s.fetch.extractLsb' 8 4)) s.flags = some true →
      t.pc = s.reg (Reg.ofNum (s.fetch.extractLsb' 16 3))) ∧
    (opcodeByte s.fetch = 0x45 → condHolds (Cond.ofCode (s.fetch.extractLsb' 8 4)) s.flags = some true →
      t.pc = s.fetch.extractLsb' 16 16)

/-- R23, with ALU_WRITES_FLAGS = false. -/
def Obligations.OnlyCompareWritesFlags : Prop :=
  ∀ s t : State, step s = .next t →
    (opcodeByte s.fetch ≠ 0x42 → opcodeByte s.fetch ≠ 0x43 → t.flags = s.flags) ∧
    (opcodeByte s.fetch = 0x42 → t.flags =
      cmpFlags (s.reg (Reg.ofNum (s.fetch.extractLsb' 12 3))) (s.reg (Reg.ofNum (s.fetch.extractLsb' 16 3)))) ∧
    (opcodeByte s.fetch = 0x43 → t.flags =
      cmpFlags (s.reg (Reg.ofNum (s.fetch.extractLsb' 12 3))) (s.fetch.extractLsb' 16 16))

/-- R24; the part of R85 that no ALU instruction reads a flag follows. -/
def Obligations.OnlyBranchesReadFlags : Prop :=
  ∀ (s : State) (f : Flags), opcodeByte s.fetch ≠ 0x44 → opcodeByte s.fetch ≠ 0x45 →
    (∀ t, step s = .next t → ∃ u, step (withFlags f s) = .next u ∧ withFlags t.flags u = t) ∧
    (∀ e, step s = .fault e → step (withFlags f s) = .fault e)

/-- R47. The list of events does grow with each print: it is the model's own field (notes/assumptions/5.md). -/
def Obligations.ScreenIsWriteOnly : Prop :=
  (∀ (s : State) (c : Screen) (l : List ScnEvent),
    (∀ t, step s = .next t → ∃ u, step (withScreen c l s) = .next u ∧ withScreen t.scn t.scnLog u = t) ∧
    (∀ e, step s = .fault e → step (withScreen c l s) = .fault e)) ∧
  (∀ (i : Instr) (s t u : State), i.opcode ∈ [.printReg, .printRegI, .printCns, .printCnsI] → exec i s = .next t →
    exec i t = .next u → ∀ k, u.scn.read k = t.scn.read k)

/-- R15: the writers; what each reads is in its own result statement. -/
def Obligations.OnlyDestinationRegisterChanges : Prop :=
  ∀ s t : State, step s = .next t →
    (∀ r, r ≠ Reg.ofNum (s.fetch.extractLsb' 8 3) → t.reg r = s.reg r) ∧
    (¬ (opcodeByte s.fetch ≤ 0x1D ∨ opcodeByte s.fetch = 0x40 ∨ opcodeByte s.fetch = 0x41 ∨ opcodeByte s.fetch = 0x46 ∨
        opcodeByte s.fetch = 0x47) → SameRegs s t)

/-- R27, R36: the writers of MEM and how much each writes. -/
def Obligations.OnlyWritesChangeMemory : Prop :=
  ∀ s t : State, step s = .next t →
    (∀ k, k ≠ (effectiveAddress s).toNat → t.mem.read k = s.mem.read k) ∧
    (opcodeByte s.fetch ≠ 0x48 → opcodeByte s.fetch ≠ 0x49 → SameMem s t)

/-- R159 with the position and the cell of R160 to R163, computed from the fetched word and the registers before the step. The
list of events is the model's own field (notes/assumptions/5.md). -/
def Obligations.PrintsWriteScreenOnce : Prop :=
  ∀ s t : State, step s = .next t →
    ((0x4A ≤ opcodeByte s.fetch ∧ opcodeByte s.fetch ≤ 0x4D) →
      t.scn.read (printedPosition s).toNat = some (printedCell s) ∧
      (∀ k, k ≠ (printedPosition s).toNat → t.scn.read k = s.scn.read k) ∧
      t.scnLog = s.scnLog ++ [⟨printedPosition s, printedCell s⟩] ∧
      PcStepped s t ∧ t.flags = s.flags ∧ SameRegs s t ∧ SameMem s t) ∧
    (¬ (0x4A ≤ opcodeByte s.fetch ∧ opcodeByte s.fetch ≤ 0x4D) → SameScreen s t)

/-- R32 calls the kept list of screen writes a function of the run: a run only appends to it, and what it appends does not
depend on the screen or the list it started with. That a run may start with any list is the model's choice
(notes/assumptions/5.md). -/
def Obligations.ScreenWritesAreAFunctionOfTheRun : Prop :=
  ∀ s t : State, Steps s t →
    t.scnLog = s.scnLog ++ screenWrites s t ∧
    ∀ (c : Screen) (l : List ScnEvent), ∃ u, Steps (withScreen c l s) u ∧ screenWrites (withScreen c l s) u = screenWrites s t ∧
      withScreen t.scn t.scnLog u = t

/-- R186. -/
def Obligations.FinishedRunStaysFixed : Prop :=
  ∀ s : State, s.imem.read s.pc.toNat = (0x45 : InstrWord) ||| s.pc.setWidth 32 <<< 16 →
    finished s = true ∧ ∀ n, Sys2Proof.core.run n s = .next s

/-- R184, R190; the edition's name is notes/assumptions/16.md. -/
def Obligations.LoaderPlacesTheImage : Prop :=
  ∀ (img : Image) (s : State),
    (img.edition = Config.edition → img.words.length ≤ 65536 → ∃ t, loadImage img s = .next t ∧
      (∀ k, t.imem.read k = img.words.getD k 0xFFFFFFFF) ∧ { t with imem := s.imem } = s ∧ (s.wf = true → t.wf = true)) ∧
    (img.edition ≠ Config.edition → loadImage img s = .refused (.wrongEdition img.edition))

/-! ## ALU instructions -/

/-- R88, R89, R90, R109, R110, R111. -/
def Obligations.BitwiseResults : Prop :=
  ∀ (d a b : Reg) (imm : Word),
    FormatR 0x00 (.aluAnd d a b) (number d) (number a) (number b) ∧
    GivesRegister (.aluAnd d a b) d (fun s => s.reg a &&& (s.reg b)) ∧
    FormatI 0x10 (.aluAndI d a imm) (number d) (number a) imm.toNat ∧
    GivesRegister (.aluAndI d a imm) d (fun s => s.reg a &&& imm) ∧
    FormatR 0x01 (.aluOr d a b) (number d) (number a) (number b) ∧
    GivesRegister (.aluOr d a b) d (fun s => s.reg a ||| (s.reg b)) ∧
    FormatI 0x11 (.aluOrI d a imm) (number d) (number a) imm.toNat ∧
    GivesRegister (.aluOrI d a imm) d (fun s => s.reg a ||| imm) ∧
    FormatR 0x02 (.aluXor d a b) (number d) (number a) (number b) ∧
    GivesRegister (.aluXor d a b) d (fun s => s.reg a ^^^ (s.reg b)) ∧
    FormatI 0x12 (.aluXorI d a imm) (number d) (number a) imm.toNat ∧
    GivesRegister (.aluXorI d a imm) d (fun s => s.reg a ^^^ imm)

/-- R91, R112. -/
def Obligations.NotResults : Prop :=
  ∀ d a : Reg,
    FormatR 0x03 (.aluNot d a) (number d) (number a) 0 ∧
    GivesRegister (.aluNot d a) d (fun s => BitVec.ofNat 16 (0xFFFF - (s.reg a).toNat)) ∧
    FormatI 0x13 (.aluNotI d a) (number d) (number a) 0 ∧
    GivesRegister (.aluNotI d a) d (fun s => BitVec.ofNat 16 (0xFFFF - (s.reg a).toNat)) ∧
    (∀ s t, exec (.aluNot d a) s = .next t → ∀ j < 16, (t.reg d).getLsbD j = !(s.reg a).getLsbD j)

/-- R92, R113. -/
def Obligations.AddResults : Prop :=
  ∀ (d a b : Reg) (imm : Word),
    FormatR 0x04 (.aluAdd d a b) (number d) (number a) (number b) ∧
    GivesRegister (.aluAdd d a b) d (fun s => BitVec.ofNat 16 ((s.reg a).toNat + (s.reg b).toNat)) ∧
    FormatI 0x14 (.aluAddI d a imm) (number d) (number a) imm.toNat ∧
    GivesRegister (.aluAddI d a imm) d (fun s => BitVec.ofNat 16 ((s.reg a).toNat + imm.toNat))

/-- R93, R114; trunc_16 of a negative number is the mathematical modulus (00_scope.md R8). -/
def Obligations.SubResults : Prop :=
  ∀ (d a b : Reg) (imm : Word),
    FormatR 0x05 (.aluSub d a b) (number d) (number a) (number b) ∧
    GivesRegister (.aluSub d a b) d (fun s => BitVec.ofNat 16 ((((s.reg a).toNat : Int) - ((s.reg b).toNat : Int)) % 65536).toNat) ∧
    FormatI 0x15 (.aluSubI d a imm) (number d) (number a) imm.toNat ∧
    GivesRegister (.aluSubI d a imm) d (fun s => BitVec.ofNat 16 ((((s.reg a).toNat : Int) - (imm.toNat : Int)) % 65536).toNat)

/-- R95, R115, with SHIFT_MODE = full (R94). -/
def Obligations.LslResults : Prop :=
  ∀ (d a b : Reg) (imm : Word),
    FormatR 0x06 (.aluLsl d a b) (number d) (number a) (number b) ∧
    GivesRegister (.aluLsl d a b) d (fun s => if 16 ≤ (s.reg b).toNat then 0 else BitVec.ofNat 16 ((s.reg a).toNat * 2 ^ (s.reg b).toNat)) ∧
    FormatI 0x16 (.aluLslI d a imm) (number d) (number a) imm.toNat ∧
    GivesRegister (.aluLslI d a imm) d (fun s => if 16 ≤ imm.toNat then 0 else BitVec.ofNat 16 ((s.reg a).toNat * 2 ^ imm.toNat))

/-- R96, R116, with SHIFT_MODE = full (R94). -/
def Obligations.LsrResults : Prop :=
  ∀ (d a b : Reg) (imm : Word),
    FormatR 0x07 (.aluLsr d a b) (number d) (number a) (number b) ∧
    GivesRegister (.aluLsr d a b) d (fun s => if 16 ≤ (s.reg b).toNat then 0 else BitVec.ofNat 16 ((s.reg a).toNat / 2 ^ (s.reg b).toNat)) ∧
    FormatI 0x17 (.aluLsrI d a imm) (number d) (number a) imm.toNat ∧
    GivesRegister (.aluLsrI d a imm) d (fun s => if 16 ≤ imm.toNat then 0 else BitVec.ofNat 16 ((s.reg a).toNat / 2 ^ imm.toNat))

/-- R94: a program that keeps its amounts below 16 does not depend on the choice. -/
def Obligations.ShiftModesAgreeBelowSixteen : Prop :=
  ∀ a b : Word, (b.toNat < 16 → lslWord .full a b = lslWord .mod16 a b ∧ lsrWord .full a b = lsrWord .mod16 a b) ∧
    lslWord .full a 16 = 0 ∧ lsrWord .full a 16 = 0 ∧ lslWord .mod16 a 16 = a ∧ lsrWord .mod16 a 16 = a

/-- R98, R117, with BCD_LOW of R97. -/
def Obligations.BcdlResults : Prop :=
  ∀ d a : Reg,
    FormatR 0x08 (.aluBcdl d a) (number d) (number a) 0 ∧
    GivesRegister (.aluBcdl d a) d (fun s => BitVec.ofNat 16 (digit 3 (s.reg a) * 4096 + digit 2 (s.reg a) * 256 + digit 1 (s.reg a) * 16 + digit 0 (s.reg a))) ∧
    FormatI 0x18 (.aluBcdlI d a) (number d) (number a) 0 ∧
    GivesRegister (.aluBcdlI d a) d (fun s => BitVec.ofNat 16 (digit 3 (s.reg a) * 4096 + digit 2 (s.reg a) * 256 + digit 1 (s.reg a) * 16 + digit 0 (s.reg a)))

/-- R99, R118, with BCD_HIGH of R97. -/
def Obligations.BcdhResults : Prop :=
  ∀ d a : Reg,
    FormatR 0x09 (.aluBcdh d a) (number d) (number a) 0 ∧
    GivesRegister (.aluBcdh d a) d (fun s => BitVec.ofNat 16 ((s.reg a).toNat / 10000)) ∧
    FormatI 0x19 (.aluBcdhI d a) (number d) (number a) 0 ∧
    GivesRegister (.aluBcdhI d a) d (fun s => BitVec.ofNat 16 ((s.reg a).toNat / 10000))

/-- R97. -/
def Obligations.BcdDigitsGiveTheValueBack : Prop :=
  ∀ a : Word, ((bcdLow a).extractLsb' 12 4).toNat = digit 3 a ∧ ((bcdLow a).extractLsb' 8 4).toNat = digit 2 a ∧
    ((bcdLow a).extractLsb' 4 4).toNat = digit 1 a ∧ ((bcdLow a).extractLsb' 0 4).toNat = digit 0 a ∧
    (bcdHigh a).toNat = digit 4 a ∧ digit 0 a ≤ 9 ∧ digit 1 a ≤ 9 ∧ digit 2 a ≤ 9 ∧ digit 3 a ≤ 9 ∧ digit 4 a ≤ 6 ∧
    a.toNat = digit 4 a * 10000 + digit 3 a * 1000 + digit 2 a * 100 + digit 1 a * 10 + digit 0 a

/-- R101, R102, R119, R120; the product is exact in 32 bits (R100). -/
def Obligations.UnsignedMultiplyResults : Prop :=
  ∀ (d a b : Reg) (imm : Word),
    FormatR 0x0A (.aluUmulL d a b) (number d) (number a) (number b) ∧
    GivesRegister (.aluUmulL d a b) d (fun s => BitVec.ofNat 16 ((s.reg a).toNat * (s.reg b).toNat)) ∧
    FormatI 0x1A (.aluUmulLI d a imm) (number d) (number a) imm.toNat ∧
    GivesRegister (.aluUmulLI d a imm) d (fun s => BitVec.ofNat 16 ((s.reg a).toNat * imm.toNat)) ∧
    FormatR 0x0B (.aluUmulH d a b) (number d) (number a) (number b) ∧
    GivesRegister (.aluUmulH d a b) d (fun s => BitVec.ofNat 16 ((s.reg a).toNat * (s.reg b).toNat / 65536)) ∧
    FormatI 0x1B (.aluUmulHI d a imm) (number d) (number a) imm.toNat ∧
    GivesRegister (.aluUmulHI d a imm) d (fun s => BitVec.ofNat 16 ((s.reg a).toNat * imm.toNat / 65536))

/-- R103, R104, R121, R122; P[31:16] of the two's-complement product is the floor of the product over 2^16. -/
def Obligations.SignedMultiplyResults : Prop :=
  ∀ (d a b : Reg) (imm : Word),
    FormatR 0x0C (.aluMulL d a b) (number d) (number a) (number b) ∧
    GivesRegister (.aluMulL d a b) d (fun s => BitVec.ofInt 16 ((s.reg a).toInt * (s.reg b).toInt)) ∧
    FormatI 0x1C (.aluMulLI d a imm) (number d) (number a) imm.toNat ∧
    GivesRegister (.aluMulLI d a imm) d (fun s => BitVec.ofInt 16 ((s.reg a).toInt * imm.toInt)) ∧
    FormatR 0x0D (.aluMulH d a b) (number d) (number a) (number b) ∧
    GivesRegister (.aluMulH d a b) d (fun s => BitVec.ofInt 16 ((s.reg a).toInt * (s.reg b).toInt / 65536)) ∧
    FormatI 0x1D (.aluMulHI d a imm) (number d) (number a) imm.toNat ∧
    GivesRegister (.aluMulHI d a imm) d (fun s => BitVec.ofInt 16 ((s.reg a).toInt * imm.toInt / 65536))

/-- R100 but for its remark on differing high halves, which a zero operand contradicts (NOTES.md). -/
def Obligations.ProductHalvesMakeTheProduct : Prop :=
  ∀ a b : Word,
    (highHalf (umulProduct a b)).toNat * 65536 + (lowHalf (umulProduct a b)).toNat = a.toNat * b.toNat ∧
    (highHalf (mulProduct a b)).toInt * 65536 + ((lowHalf (mulProduct a b)).toNat : Int) = a.toInt * b.toInt ∧
    lowHalf (mulProduct a b) = lowHalf (umulProduct a b) ∧
    (a.msb = false → b.msb = false → highHalf (mulProduct a b) = highHalf (umulProduct a b))

/-- R105, R106, R123, R124. -/
def Obligations.ReservedAluSlotsFault : Prop :=
  ∀ s : State, exec .aluNul0E s = .fault (.illegalInstruction s.pc s.fetch) ∧
    exec .aluNul0F s = .fault (.illegalInstruction s.pc s.fetch) ∧
    exec .aluNul0EI s = .fault (.illegalInstruction s.pc s.fetch) ∧
    exec .aluNul0FI s = .fault (.illegalInstruction s.pc s.fetch) ∧
    encode .aluNul0E = 0x0000000E ∧ encode .aluNul0F = 0x0000000F ∧ encode .aluNul0EI = 0x0000001E ∧
    encode .aluNul0FI = 0x0000001F

/-! ## Moves and comparisons -/

/-- R126, R127, with MOVE_SRC_FIELD = B (R125). -/
def Obligations.MoveResults : Prop :=
  ∀ (d b : Reg) (imm : Word),
    FormatR 0x40 (.move d b) (number d) 0 (number b) ∧ GivesRegister (.move d b) d (fun s => s.reg b) ∧
    FormatI 0x41 (.moveI d imm) (number d) 0 imm.toNat ∧ GivesRegister (.moveI d imm) d (fun _ => imm)

/-- R129, R130, with CmpFlags of R128 in its arithmetic form. -/
def Obligations.CompareResults : Prop :=
  ∀ (a b : Reg) (imm : Word),
    FormatR 0x42 (.cmp a b) 0 (number a) (number b) ∧
    GivesFlags (.cmp a b) (fun s => decide (s.reg a = s.reg b)) (fun s => (s.reg a - s.reg b).getLsbD 15)
      (fun s => decide ((s.reg b).toNat ≤ (s.reg a).toNat))
      (fun s => decide ((s.reg a).toInt - (s.reg b).toInt < -32768 ∨ 32767 < (s.reg a).toInt - (s.reg b).toInt)) ∧
    FormatI 0x43 (.cmpI a imm) 0 (number a) imm.toNat ∧
    GivesFlags (.cmpI a imm) (fun s => decide (s.reg a = imm)) (fun s => (s.reg a - imm).getLsbD 15)
      (fun s => decide (imm.toNat ≤ (s.reg a).toNat))
      (fun s => decide ((s.reg a).toInt - imm.toInt < -32768 ∨ 32767 < (s.reg a).toInt - imm.toInt))

/-- R128. -/
def Obligations.CmpFlagsMeaning : Prop :=
  ∀ a b : Word, let t := a.toNat + (~~~b).toNat + 1
    (cmpFlags a b).z = decide (t % 65536 = 0) ∧ (cmpFlags a b).n = decide (32768 ≤ t % 65536) ∧
    (cmpFlags a b).c = decide (65536 ≤ t) ∧
    (cmpFlags a b).v = (decide (a.msb ≠ b.msb) && decide ((cmpFlags a b).n ≠ a.msb)) ∧
    ((cmpFlags a b).z = true ↔ a = b) ∧ ((cmpFlags a b).c = true ↔ b.toNat ≤ a.toNat) ∧
    ((cmpFlags a b).v = true ↔ a.toInt - b.toInt < -32768 ∨ 32767 < a.toInt - b.toInt)

/-- R149. -/
def Obligations.ConditionsAfterCompare : Prop :=
  (∀ f : Flags, condHolds .bne f = (condHolds .beq f).map not ∧ condHolds .bge f = (condHolds .blt f).map not ∧
    condHolds .bgt f = (condHolds .ble f).map not ∧ condHolds .bcc f = (condHolds .bcs f).map not ∧
    condHolds .bpl f = (condHolds .bmi f).map not ∧ condHolds .bvc f = (condHolds .bvs f).map not ∧
    condHolds .bls f = (condHolds .bhi f).map not ∧ condHolds .bmi f = condHolds .blt f ∧
    condHolds .bpl f = condHolds .bge f) ∧
  (∀ c : Cond, c ≠ .reservedF → ∃ f, condHolds c f = some true) ∧
  (∀ a b : Word, condHolds .beq (cmpFlags a b) = some (decide (a = b)) ∧
    condHolds .bne (cmpFlags a b) = some (decide (a ≠ b)) ∧
    condHolds .bcs (cmpFlags a b) = some (decide (b.toNat ≤ a.toNat)) ∧
    condHolds .bcc (cmpFlags a b) = some (decide (a.toNat < b.toNat)) ∧
    condHolds .bhi (cmpFlags a b) = some (decide (b.toNat < a.toNat)) ∧
    condHolds .bls (cmpFlags a b) = some (decide (a.toNat ≤ b.toNat)) ∧
    ((cmpFlags a b).v = false →
      condHolds .blt (cmpFlags a b) = some (decide (a.toInt < b.toInt)) ∧
      condHolds .ble (cmpFlags a b) = some (decide (a.toInt ≤ b.toInt)) ∧
      condHolds .bgt (cmpFlags a b) = some (decide (b.toInt < a.toInt)) ∧
      condHolds .bge (cmpFlags a b) = some (decide (b.toInt ≤ a.toInt))) ∧
    (a.msb = b.msb → (cmpFlags a b).v = false) ∧
    decide (a.toInt < b.toInt) = ((cmpFlags a b).n != (cmpFlags a b).v)) ∧
  (∀ c : Cond, ∃ a b : Word, condHolds c (cmpFlags a b) ≠ some (decide (a.toInt < b.toInt)))

/-! ## Branches -/

/-- R150, R152 with the conditions of R133 to R139. -/
def Obligations.RegisterBranchesOnEqualAndOrder : Prop :=
  ∀ r : Reg,
    FormatJ (.b r) 0x0 (number r) ∧ Branches (.b r) (fun _ => true) (fun s => s.reg r) ∧
    FormatJ (.beq r) 0x1 (number r) ∧ Branches (.beq r) (fun f => f.z) (fun s => s.reg r) ∧
    FormatJ (.bne r) 0x2 (number r) ∧ Branches (.bne r) (fun f => !f.z) (fun s => s.reg r) ∧
    FormatJ (.blt r) 0x3 (number r) ∧ Branches (.blt r) (fun f => f.n) (fun s => s.reg r) ∧
    FormatJ (.ble r) 0x4 (number r) ∧ Branches (.ble r) (fun f => f.n || f.z) (fun s => s.reg r) ∧
    FormatJ (.bgt r) 0x5 (number r) ∧ Branches (.bgt r) (fun f => !f.n && !f.z) (fun s => s.reg r) ∧
    FormatJ (.bge r) 0x6 (number r) ∧ Branches (.bge r) (fun f => !f.n) (fun s => s.reg r)

/-- R150, R152 with the conditions of R140 to R147. -/
def Obligations.RegisterBranchesOnCarrySignOverflow : Prop :=
  ∀ r : Reg,
    FormatJ (.bcs r) 0x7 (number r) ∧ Branches (.bcs r) (fun f => f.c) (fun s => s.reg r) ∧
    FormatJ (.bcc r) 0x8 (number r) ∧ Branches (.bcc r) (fun f => !f.c) (fun s => s.reg r) ∧
    FormatJ (.bmi r) 0x9 (number r) ∧ Branches (.bmi r) (fun f => f.n) (fun s => s.reg r) ∧
    FormatJ (.bpl r) 0xA (number r) ∧ Branches (.bpl r) (fun f => !f.n) (fun s => s.reg r) ∧
    FormatJ (.bvs r) 0xB (number r) ∧ Branches (.bvs r) (fun f => f.v) (fun s => s.reg r) ∧
    FormatJ (.bvc r) 0xC (number r) ∧ Branches (.bvc r) (fun f => !f.v) (fun s => s.reg r) ∧
    FormatJ (.bhi r) 0xD (number r) ∧ Branches (.bhi r) (fun f => f.c && !f.z) (fun s => s.reg r) ∧
    FormatJ (.bls r) 0xE (number r) ∧ Branches (.bls r) (fun f => !f.c || f.z) (fun s => s.reg r)

/-- R151, R152 with the conditions of R133 to R139. -/
def Obligations.ImmediateBranchesOnEqualAndOrder : Prop :=
  ∀ imm : Word,
    FormatJI (.bImm imm) 0x0 imm.toNat ∧ Branches (.bImm imm) (fun _ => true) (fun _ => imm) ∧
    FormatJI (.beqImm imm) 0x1 imm.toNat ∧ Branches (.beqImm imm) (fun f => f.z) (fun _ => imm) ∧
    FormatJI (.bneImm imm) 0x2 imm.toNat ∧ Branches (.bneImm imm) (fun f => !f.z) (fun _ => imm) ∧
    FormatJI (.bltImm imm) 0x3 imm.toNat ∧ Branches (.bltImm imm) (fun f => f.n) (fun _ => imm) ∧
    FormatJI (.bleImm imm) 0x4 imm.toNat ∧ Branches (.bleImm imm) (fun f => f.n || f.z) (fun _ => imm) ∧
    FormatJI (.bgtImm imm) 0x5 imm.toNat ∧ Branches (.bgtImm imm) (fun f => !f.n && !f.z) (fun _ => imm) ∧
    FormatJI (.bgeImm imm) 0x6 imm.toNat ∧ Branches (.bgeImm imm) (fun f => !f.n) (fun _ => imm)

/-- R151, R152 with the conditions of R140 to R147. -/
def Obligations.ImmediateBranchesOnCarrySignOverflow : Prop :=
  ∀ imm : Word,
    FormatJI (.bcsImm imm) 0x7 imm.toNat ∧ Branches (.bcsImm imm) (fun f => f.c) (fun _ => imm) ∧
    FormatJI (.bccImm imm) 0x8 imm.toNat ∧ Branches (.bccImm imm) (fun f => !f.c) (fun _ => imm) ∧
    FormatJI (.bmiImm imm) 0x9 imm.toNat ∧ Branches (.bmiImm imm) (fun f => f.n) (fun _ => imm) ∧
    FormatJI (.bplImm imm) 0xA imm.toNat ∧ Branches (.bplImm imm) (fun f => !f.n) (fun _ => imm) ∧
    FormatJI (.bvsImm imm) 0xB imm.toNat ∧ Branches (.bvsImm imm) (fun f => f.v) (fun _ => imm) ∧
    FormatJI (.bvcImm imm) 0xC imm.toNat ∧ Branches (.bvcImm imm) (fun f => !f.v) (fun _ => imm) ∧
    FormatJI (.bhiImm imm) 0xD imm.toNat ∧ Branches (.bhiImm imm) (fun f => f.c && !f.z) (fun _ => imm) ∧
    FormatJI (.blsImm imm) 0xE imm.toNat ∧ Branches (.blsImm imm) (fun f => !f.c || f.z) (fun _ => imm)

/-- R150, R151. -/
def Obligations.GenericBranchResults : Prop :=
  (∀ (c : Cond) (r : Reg) (imm : Word),
    FormatJ (.branch c r) c.code.toNat (number r) ∧ FormatJI (.branchI c imm) c.code.toNat imm.toNat ∧
    (c = .reservedF → ∀ s, exec (.branch c r) s = .fault (.reservedCondition s.pc s.fetch) ∧
      exec (.branchI c imm) s = .fault (.reservedCondition s.pc s.fetch)) ∧
    (c ≠ .reservedF → Branches (.branch c r) (fun f => condHolds c f == some true) (fun s => s.reg r) ∧
      Branches (.branchI c imm) (fun f => condHolds c f == some true) (fun _ => imm))) ∧
  (∀ s, opcodeByte s.fetch = 0x44 → s.fetch &&& 0x0008F000 ≠ 0 → step s = .fault (.reservedEncoding s.pc s.fetch)) ∧
  (∀ s, opcodeByte s.fetch = 0x45 → s.fetch &&& 0x0000F000 ≠ 0 → step s = .fault (.reservedEncoding s.pc s.fetch))

/-! ## Memory -/

/-- R155, R156. -/
def Obligations.ReadResults : Prop :=
  ∀ (d b : Reg) (imm : Word),
    FormatR 0x46 (.read d b) (number d) 0 (number b) ∧ Loads (.read d b) d (fun s => s.reg b) ∧
    FormatI 0x47 (.readI d imm) (number d) 0 imm.toNat ∧ Loads (.readI d imm) d (fun _ => imm)

/-- R157, R158. -/
def Obligations.WriteResults : Prop :=
  ∀ (a b : Reg) (imm : Word),
    FormatR 0x48 (.write a b) 0 (number a) (number b) ∧ Stores (.write a b) (fun s => s.reg b) (fun s => s.reg a) ∧
    FormatI 0x49 (.writeI a imm) 0 (number a) imm.toNat ∧ Stores (.writeI a imm) (fun _ => imm) (fun s => s.reg a)

/-- R35, R39, R188. -/
def Obligations.ReadAfterWrite : Prop :=
  ∀ (a b d : Reg) (s : State), (s.reg b).toNat < 256 → ∃ t u, exec (.write a b) s = .next t ∧ exec (.read d b) t = .next u ∧
    u.reg d = s.reg a ∧
    ∀ k : Word, k.toNat < 256 → k ≠ s.reg b → ∃ v, exec (.readI d k) t = .next v ∧ v.reg d = s.mem.read k.toNat

/-- R37: a program that keeps its addresses in 0-255 behaves the same under both. -/
def Obligations.AddressModesAgreeInRange : Prop :=
  ∀ addr : Word, (memIndex .fault addr = memIndex .wrap8 addr ↔ addr.toNat < 256) ∧
    (256 ≤ addr.toNat → memIndex .fault addr = none ∧ memIndex .wrap8 addr = some (addr.toNat % 256))

/-! ## Printing -/

/-- R160, R161. -/
def Obligations.PrintRegisterResults : Prop :=
  ∀ (a b : Reg) (imm : Word),
    FormatR 0x4A (.printReg a b) 0 (number a) (number b) ∧
    Prints (.printReg a b) (fun s => s.reg b) .value (fun s => s.reg a) ∧
    FormatI 0x4B (.printRegI a imm) 0 (number a) imm.toNat ∧
    Prints (.printRegI a imm) (fun _ => imm) .value (fun s => s.reg a)

/-- R162, R163. -/
def Obligations.PrintConstantResults : Prop :=
  ∀ (b : Reg) (x c : Byte),
    (encode (.printCns b c)).toNat = 0x4C + number b * 2 ^ 16 + c.toNat * 2 ^ 24 ∧ IgnoresUnused 0x4C ∧
    (∀ s, opcodeByte s.fetch = 0x4C → s.fetch &&& 0x00088800 ≠ 0 → step s = .fault (.reservedEncoding s.pc s.fetch)) ∧
    Prints (.printCns b c) (fun s => s.reg b) .char (fun _ => BitVec.ofNat 16 c.toNat) ∧
    FormatI 0x4D (.printCnsI x c) 0 0 (c.toNat * 256 + x.toNat) ∧
    Prints (.printCnsI x c) (fun _ => BitVec.ofNat 16 x.toNat) .char (fun _ => BitVec.ofNat 16 c.toNat)

/-! ## Assembler statements and the Translator ROM -/

/-- R76 row by row, with R78 and R79: which instruction each mnemonic assembles to with each kind of operands, which numbers and
codes it takes, and that nothing else assembles; every word so assembled decodes to its instruction. That a negative position of
`PRINT imm, 'c'` does not assemble is the model's choice (notes/assumptions/15.md). -/
def Obligations.AssembledStatementsDecode : Prop :=
  (∀ p ∈ threeOperandRows, ∀ d a : Reg, (∀ b : Reg, assemble p.1 [.reg d, .reg a, .reg b] = some (p.2.1 d a b)) ∧
    TakesImmediate (fun k => assemble p.1 [.reg d, .reg a, .num k]) (p.2.2 d a)) ∧
  (∀ p ∈ twoOperandRows, ∀ x : Reg, (∀ y : Reg, assemble p.1 [.reg x, .reg y] = some (p.2.1 x y)) ∧
    TakesImmediate (fun k => assemble p.1 [.reg x, .num k]) (p.2.2 x)) ∧
  (∀ p ∈ branchRows, (∀ r : Reg, assemble (.branch p.1) [.reg r] = some (p.2.1 r)) ∧
    TakesImmediate (fun k => assemble (.branch p.1) [.num k]) p.2.2) ∧
  (∀ ops, assemble (.branch .reservedF) ops = none) ∧
  (∀ d : Reg, assemble .not [.reg d] = some (.aluNot d d)) ∧
  (∀ d a : Reg, assemble .bcdl [.reg d, .reg a] = some (.aluBcdl d a) ∧ assemble .bcdh [.reg d, .reg a] = some (.aluBcdh d a)) ∧
  (assemble .nul0E [] = some .aluNul0E ∧ assemble .nul0F [] = some .aluNul0F) ∧
  (∀ a b : Reg, assemble .print [.reg a, .reg b] = some (.printReg a b)) ∧
  (∀ a : Reg, TakesImmediate (fun k => assemble .print [.num k, .reg a]) (Instr.printRegI a)) ∧
  (∀ (b : Reg) (c : Nat), (c ≤ 255 → assemble .print [.reg b, .chr c] = some (.printCns b (BitVec.ofNat 8 c))) ∧
    (255 < c → assemble .print [.reg b, .chr c] = none)) ∧
  (∀ (k : Int) (c : Nat),
    (0 ≤ k → k ≤ 255 → c ≤ 255 →
      assemble .print [.num k, .chr c] = some (.printCnsI (BitVec.ofNat 8 k.toNat) (BitVec.ofNat 8 c))) ∧
    (k < 0 ∨ 255 < k ∨ 255 < c → assemble .print [.num k, .chr c] = none)) ∧
  (∀ (m : Mnemonic) (ops : List AsmOperand), ops.map kindOf ∉ operandKinds m → assemble m ops = none) ∧
  (∀ (m : Mnemonic) (ops : List AsmOperand) (i : Instr), assemble m ops = some i → decode (encode i) = .ok i)

/-- R77. -/
def Obligations.PrintFormsByOperandKinds : Prop :=
  (∀ a b : Reg, assemble .print [.reg a, .reg b] = some (.printReg a b)) ∧
  (∀ (p : Word) (a : Reg), assemble .print [.num p.toNat, .reg a] = some (.printRegI a p)) ∧
  (∀ (b : Reg) (c : Byte), assemble .print [.reg b, .chr c.toNat] = some (.printCns b c)) ∧
  (∀ p c : Byte, assemble .print [.num p.toNat, .chr c.toNat] = some (.printCnsI p c)) ∧
  (∀ (ops : List AsmOperand) (i : Instr), assemble .print ops = some i →
    (∃ a b, ops = [.reg a, .reg b]) ∨ (∃ k a, ops = [.num k, .reg a]) ∨ (∃ b c, ops = [.reg b, .chr c]) ∨
    (∃ k c, ops = [.num k, .chr c]))

/-- R83's table of the low six bits, and that no other opcode has any; its bits VALID, IMMEDIATE and TYPE are those of R81 and R82;
and they agree with decoding: an opcode without them makes the step raise IllegalInstruction, one with them never does, and
IMMEDIATE is the format of the instruction decoded. The ROM is documentation of the decoder (notes/assumptions/14.md). -/
def Obligations.RomLowBitsAgreeWithDecoder : Prop :=
  (∀ p ∈ romTable, ∀ op : Byte, p.1 ≤ op → op ≤ p.2.1 → romBitsOf op = some p.2.2) ∧
  (∀ op : Byte, (∀ p ∈ romTable, ¬ (p.1 ≤ op ∧ op ≤ p.2.1)) → romBitsOf op = none) ∧
  (∀ (op : Byte) (x : BitVec 6), romBitsOf op = some x →
    romValid (x.setWidth 16) = true ∧
    ∃ ty, RomType.ofCode (romTypeCode (x.setWidth 16)) = some ty ∧ ty ≠ .fpu ∧ ty ≠ .service) ∧
  (∀ s : State, romBitsOf (opcodeByte s.fetch) = none ↔ step s = .fault (.illegalInstruction s.pc s.fetch)) ∧
  (∀ (w : InstrWord) (i : Instr) (x : BitVec 6), decode w = .ok i → romBitsOf (opcodeByte w) = some x →
    romImmediate (x.setWidth 16) = decide (i.opcode.format = .i ∨ i.opcode.format = .ji))
end

