-- ==== Sys2Proof/Laws/Cells.lean ====
section
/-! SUPPORT. The sparse spaces: reading after a write, and that every operation keeps the canonical form. -/

namespace Sys2Proof.Machine

variable {α : Type}

/-! ## Lookup -/

@[simp] theorem Cells.lookup_nil (k : Nat) : Cells.lookup ([] : Cells α) k = none := rfl

theorem Cells.lookup_cons (j : Nat) (u : α) (rest : Cells α) (k : Nat) :
    Cells.lookup ((j, u) :: rest) k = if j = k then some u else Cells.lookup rest k := rfl

@[simp] theorem Cells.lookup_insert (m : Cells α) (k : Nat) (v : α) (a : Nat) :
    Cells.lookup (Cells.insert m k v) a = if a = k then some v else Cells.lookup m a := by
  induction m with
  | nil => simp [Cells.insert, Cells.lookup, eq_comm]
  | cons e rest ih =>
    obtain ⟨j, u⟩ := e
    unfold Cells.insert
    split
    · simp [Cells.lookup_cons, eq_comm]
    · split
      · next h => subst h; simp only [Cells.lookup_cons]; split <;> simp_all [eq_comm]
      · simp only [Cells.lookup_cons, ih]
        split
        · next h1 h2 h3 => subst h3; simp [Ne.symm h2]
        · rfl

@[simp] theorem Cells.lookup_erase (m : Cells α) (k a : Nat) :
    Cells.lookup (Cells.erase m k) a = if a = k then none else Cells.lookup m a := by
  induction m with
  | nil => simp [Cells.erase]
  | cons e rest ih =>
    obtain ⟨j, u⟩ := e
    simp only [Cells.erase, List.filter_cons] at ih ⊢
    by_cases hj : j = k
    · subst hj; simp only [bne_self_eq_false, Bool.false_eq_true, if_false, ih, Cells.lookup_cons]
      split <;> simp_all [eq_comm]
    · simp only [bne_iff_ne, ne_eq, hj, not_false_eq_true, if_true, Cells.lookup_cons, ih]
      split
      · next h => subst h; simp [hj]
      · rfl

/-! ## Canonical form -/

theorem Cells.rising_cons_iff (j : Nat) (u : α) (rest : Cells α) :
    Cells.rising ((j, u) :: rest) = true ↔ (∀ e ∈ rest.head?, j < e.1) ∧ Cells.rising rest = true := by
  cases rest with
  | nil => simp [Cells.rising]
  | cons e t => obtain ⟨k, v⟩ := e; simp [Cells.rising]

theorem Cells.rising_iff_pairwise (m : Cells α) :
    Cells.rising m = true ↔ m.Pairwise (fun a b => a.1 < b.1) := by
  induction m with
  | nil => simp [Cells.rising]
  | cons e rest ih =>
    obtain ⟨j, u⟩ := e
    rw [Cells.rising_cons_iff, ih, List.pairwise_cons]
    constructor
    · rintro ⟨h, hp⟩
      refine ⟨?_, hp⟩
      cases rest with
      | nil => simp
      | cons e t =>
        have hj : j < e.1 := h e (by simp)
        intro a ha
        rcases List.mem_cons.mp ha with rfl | ha
        · exact hj
        · exact lt_trans hj ((List.pairwise_cons.mp hp).1 a ha)
    · rintro ⟨h, hp⟩
      exact ⟨fun e he => h e (List.mem_of_mem_head? he), hp⟩

theorem Cells.mem_insert {m : Cells α} {k : Nat} {v : α} {e : Nat × α} (h : e ∈ Cells.insert m k v) :
    e = (k, v) ∨ e ∈ m := by
  induction m with
  | nil => simpa [Cells.insert] using h
  | cons d rest ih =>
    obtain ⟨j, u⟩ := d
    unfold Cells.insert at h
    split at h
    · simpa using h
    · split at h
      · rcases List.mem_cons.mp h with h | h
        · exact .inl h
        · exact .inr (List.mem_cons_of_mem _ h)
      · rcases List.mem_cons.mp h with rfl | h
        · exact .inr (by simp)
        · exact (ih h).imp id (List.mem_cons_of_mem _)

theorem Cells.rising_insert {m : Cells α} (h : Cells.rising m = true) (k : Nat) (v : α) :
    Cells.rising (Cells.insert m k v) = true := by
  rw [Cells.rising_iff_pairwise] at h ⊢
  induction m with
  | nil => simp [Cells.insert]
  | cons d rest ih =>
    obtain ⟨j, u⟩ := d
    obtain ⟨hj, hp⟩ := List.pairwise_cons.mp h
    unfold Cells.insert
    split
    · next hk =>
      refine List.pairwise_cons.mpr ⟨fun a ha => ?_, h⟩
      rcases List.mem_cons.mp ha with rfl | ha
      · exact hk
      · exact lt_trans hk (hj a ha)
    · split
      · next hk => subst hk; exact List.pairwise_cons.mpr ⟨hj, hp⟩
      · next h1 h2 =>
        refine List.pairwise_cons.mpr ⟨fun a ha => ?_, ih hp⟩
        rcases Cells.mem_insert ha with rfl | ha
        · show j < k; omega
        · exact hj a ha

theorem Cells.wfBelow_iff (n : Nat) (m : Cells α) :
    Cells.wfBelow n m = true ↔ Cells.rising m = true ∧ ∀ e ∈ m, e.1 < n := by
  simp [Cells.wfBelow]

theorem Cells.wfBelow_insert {n : Nat} {m : Cells α} (h : Cells.wfBelow n m = true) {k : Nat} (hk : k < n) (v : α) :
    Cells.wfBelow n (Cells.insert m k v) = true := by
  rw [Cells.wfBelow_iff] at h ⊢
  refine ⟨Cells.rising_insert h.1 k v, fun e he => ?_⟩
  rcases Cells.mem_insert he with rfl | he
  · exact hk
  · exact h.2 e he

theorem Cells.wfBelow_erase {n : Nat} {m : Cells α} (h : Cells.wfBelow n m = true) (k : Nat) :
    Cells.wfBelow n (Cells.erase m k) = true := by
  rw [Cells.wfBelow_iff, Cells.rising_iff_pairwise] at h ⊢
  exact ⟨h.1.sublist List.filter_sublist, fun e he => h.2 e (List.mem_of_mem_filter he)⟩

/-! ## The three spaces -/

@[simp] theorem Memory.read_write (m : Memory) (k : Nat) (v : Word) (a : Nat) :
    (m.write k v).read a = if a = k then v else m.read a := by
  simp only [Memory.read, Memory.write, Cells.lookup_insert]
  split <;> rfl

/-- MEM keeps its canonical form under a write to a location that exists. -/
theorem Memory.wf_write {m : Memory} (h : m.wf = true) {k : Nat} (hk : k < 256) (v : Word) : (m.write k v).wf = true :=
  Cells.wfBelow_insert h hk v

@[simp] theorem Screen.read_write (c : Screen) (k : Nat) (x : ScnCell) (a : Nat) :
    (c.write k x).read a = if a = k then some x else c.read a := by
  simp [Screen.read, Screen.write]

/-- SCN keeps its canonical form under a write to a position that exists. -/
theorem Screen.wf_write {c : Screen} (h : c.wf = true) {k : Nat} (hk : k < 65536) (x : ScnCell) : (c.write k x).wf = true :=
  Cells.wfBelow_insert h hk x

@[simp] theorem InstrMemory.read_write (m : InstrMemory) (k : Nat) (w : InstrWord) (a : Nat) :
    (m.write k w).read a = if a = k then w else m.read a := by
  unfold InstrMemory.write InstrMemory.read
  split
  · next h => rw [Cells.lookup_erase]; split <;> simp [h]
  · rw [Cells.lookup_insert]; split <;> rfl

/-- IMEM keeps its canonical form when the host puts a word at an address that exists. -/
theorem InstrMemory.wf_write {m : InstrMemory} (h : m.wf = true) {k : Nat} (hk : k < 65536) (w : InstrWord) :
    (m.write k w).wf = true := by
  simp only [InstrMemory.wf, Bool.and_eq_true, List.all_eq_true, bne_iff_ne, ne_eq] at h ⊢
  unfold InstrMemory.write
  split
  · exact ⟨Cells.wfBelow_erase h.1 k, fun e he => h.2 e (List.mem_of_mem_filter he)⟩
  · next hw =>
    refine ⟨Cells.wfBelow_insert h.1 hk w, fun e he => ?_⟩
    rcases Cells.mem_insert he with rfl | he
    · exact hw
    · exact h.2 e he

end Sys2Proof.Machine
end

