-- ==== Sys2Proof/Laws/Decode.lean ====
section
/-! SUPPORT. The decoder's parts and the encoder's parts, each inverse to the other. -/

namespace Sys2Proof

@[simp] theorem Reg.ofNum_num (r : Reg) : Reg.ofNum r.num = r := by cases r <;> rfl

@[simp] theorem Reg.num_ofNum (n : BitVec 3) : (Reg.ofNum n).num = n := by
  revert n; decide

@[simp] theorem Cond.ofCode_code (c : Cond) : Cond.ofCode c.code = c := by cases c <;> rfl

@[simp] theorem Cond.code_ofCode (n : BitVec 4) : (Cond.ofCode n).code = n := by
  revert n; decide

/-- No two opcodes share a byte. -/
@[simp] theorem Opcode.ofByte_byte (o : Opcode) : Opcode.ofByte o.byte = some o := by
  cases o <;> rfl

theorem Opcode.byte_of_ofByte {x : Byte} {o : Opcode} (h : Opcode.ofByte x = some o) : o.byte = x := by
  simpa using List.find?_some h

theorem Opcode.ofByte_eq_some_iff (x : Byte) (o : Opcode) : Opcode.ofByte x = some o ↔ o.byte = x :=
  ⟨Opcode.byte_of_ofByte, fun h => h ▸ Opcode.ofByte_byte o⟩

/-! ## The fields of a packed word -/

/-- Two bit vectors agree when they agree bit by bit below a numeral width. -/
theorem bits_ext {w : Nat} {x y : BitVec w} (h : ∀ i < w, x.getLsbD i = y.getLsbD i) : x = y :=
  BitVec.eq_of_getLsbD_eq h

section packR
variable (o : Opcode) (d a b : BitVec 3) (c : Byte)

@[simp] theorem packR_opcode : (packR o d a b c).extractLsb' 0 8 = o.byte := by
  apply bits_ext; intro i hi; simp only [packR, BitVec.getLsbD_extractLsb', BitVec.getLsbD_or, BitVec.getLsbD_shiftLeft,
    BitVec.getLsbD_setWidth]; interval_cases i <;> simp

@[simp] theorem packR_dst : (packR o d a b c).extractLsb' 8 3 = d := by
  apply bits_ext; intro i hi; simp only [packR, BitVec.getLsbD_extractLsb', BitVec.getLsbD_or, BitVec.getLsbD_shiftLeft,
    BitVec.getLsbD_setWidth]; interval_cases i <;> simp

@[simp] theorem packR_a : (packR o d a b c).extractLsb' 12 3 = a := by
  apply bits_ext; intro i hi; simp only [packR, BitVec.getLsbD_extractLsb', BitVec.getLsbD_or, BitVec.getLsbD_shiftLeft,
    BitVec.getLsbD_setWidth]; interval_cases i <;> simp

@[simp] theorem packR_b : (packR o d a b c).extractLsb' 16 3 = b := by
  apply bits_ext; intro i hi; simp only [packR, BitVec.getLsbD_extractLsb', BitVec.getLsbD_or, BitVec.getLsbD_shiftLeft,
    BitVec.getLsbD_setWidth]; interval_cases i <;> simp

@[simp] theorem packR_const : (packR o d a b c).extractLsb' 24 8 = c := by
  apply bits_ext; intro i hi; simp only [packR, BitVec.getLsbD_extractLsb', BitVec.getLsbD_or, BitVec.getLsbD_shiftLeft,
    BitVec.getLsbD_setWidth]; interval_cases i <;> simp

@[simp] theorem packR_pad : packR o d a b c &&& Format.r.padMask = 0 := by
  apply bits_ext; intro i hi
  simp only [packR, Format.padMask, BitVec.getLsbD_and, BitVec.getLsbD_or, BitVec.getLsbD_shiftLeft,
    BitVec.getLsbD_setWidth]; interval_cases i <;> simp

end packR

section packI
variable (o : Opcode) (d a : BitVec 3) (imm : Word)

@[simp] theorem packI_opcode : (packI o d a imm).extractLsb' 0 8 = o.byte := by
  apply bits_ext; intro i hi; simp only [packI, BitVec.getLsbD_extractLsb', BitVec.getLsbD_or, BitVec.getLsbD_shiftLeft,
    BitVec.getLsbD_setWidth]; interval_cases i <;> simp

@[simp] theorem packI_dst : (packI o d a imm).extractLsb' 8 3 = d := by
  apply bits_ext; intro i hi; simp only [packI, BitVec.getLsbD_extractLsb', BitVec.getLsbD_or, BitVec.getLsbD_shiftLeft,
    BitVec.getLsbD_setWidth]; interval_cases i <;> simp

@[simp] theorem packI_a : (packI o d a imm).extractLsb' 12 3 = a := by
  apply bits_ext; intro i hi; simp only [packI, BitVec.getLsbD_extractLsb', BitVec.getLsbD_or, BitVec.getLsbD_shiftLeft,
    BitVec.getLsbD_setWidth]; interval_cases i <;> simp

@[simp] theorem packI_imm : (packI o d a imm).extractLsb' 16 16 = imm := by
  apply bits_ext; intro i hi; simp only [packI, BitVec.getLsbD_extractLsb', BitVec.getLsbD_or, BitVec.getLsbD_shiftLeft,
    BitVec.getLsbD_setWidth]; interval_cases i <;> simp

@[simp] theorem packI_x : (packI o d a imm).extractLsb' 16 8 = imm.extractLsb' 0 8 := by
  apply bits_ext; intro i hi; simp only [packI, BitVec.getLsbD_extractLsb', BitVec.getLsbD_or, BitVec.getLsbD_shiftLeft,
    BitVec.getLsbD_setWidth]; interval_cases i <;> simp

@[simp] theorem packI_const : (packI o d a imm).extractLsb' 24 8 = imm.extractLsb' 8 8 := by
  apply bits_ext; intro i hi; simp only [packI, BitVec.getLsbD_extractLsb', BitVec.getLsbD_or, BitVec.getLsbD_shiftLeft,
    BitVec.getLsbD_setWidth]; interval_cases i <;> simp

@[simp] theorem packI_pad : packI o d a imm &&& Format.i.padMask = 0 := by
  apply bits_ext; intro i hi
  simp only [packI, Format.padMask, BitVec.getLsbD_and, BitVec.getLsbD_or, BitVec.getLsbD_shiftLeft,
    BitVec.getLsbD_setWidth]; interval_cases i <;> simp

end packI

section packJ
variable (c : Cond) (r : Reg) (imm : Word)

@[simp] theorem packJ_opcode : (packJ c r).extractLsb' 0 8 = Opcode.branch.byte := by
  apply bits_ext; intro i hi; simp only [packJ, BitVec.getLsbD_extractLsb', BitVec.getLsbD_or, BitVec.getLsbD_shiftLeft,
    BitVec.getLsbD_setWidth]; interval_cases i <;> simp

@[simp] theorem packJ_cond : (packJ c r).extractLsb' 8 4 = c.code := by
  apply bits_ext; intro i hi; simp only [packJ, Opcode.byte, BitVec.getLsbD_extractLsb', BitVec.getLsbD_or,
    BitVec.getLsbD_shiftLeft, BitVec.getLsbD_setWidth]; interval_cases i <;> simp

@[simp] theorem packJ_reg : (packJ c r).extractLsb' 16 3 = r.num := by
  apply bits_ext; intro i hi; simp only [packJ, Opcode.byte, BitVec.getLsbD_extractLsb', BitVec.getLsbD_or,
    BitVec.getLsbD_shiftLeft, BitVec.getLsbD_setWidth]; interval_cases i <;> simp

@[simp] theorem packJ_pad : packJ c r &&& Format.j.padMask = 0 := by
  apply bits_ext; intro i hi
  simp only [packJ, Opcode.byte, Format.padMask, BitVec.getLsbD_and, BitVec.getLsbD_or, BitVec.getLsbD_shiftLeft,
    BitVec.getLsbD_setWidth]; interval_cases i <;> simp

@[simp] theorem packJI_opcode : (packJI c imm).extractLsb' 0 8 = Opcode.branchI.byte := by
  apply bits_ext; intro i hi; simp only [packJI, BitVec.getLsbD_extractLsb', BitVec.getLsbD_or, BitVec.getLsbD_shiftLeft,
    BitVec.getLsbD_setWidth]; interval_cases i <;> simp

@[simp] theorem packJI_cond : (packJI c imm).extractLsb' 8 4 = c.code := by
  apply bits_ext; intro i hi; simp only [packJI, Opcode.byte, BitVec.getLsbD_extractLsb', BitVec.getLsbD_or,
    BitVec.getLsbD_shiftLeft, BitVec.getLsbD_setWidth]; interval_cases i <;> simp

@[simp] theorem packJI_imm : (packJI c imm).extractLsb' 16 16 = imm := by
  apply bits_ext; intro i hi; simp only [packJI, Opcode.byte, BitVec.getLsbD_extractLsb', BitVec.getLsbD_or,
    BitVec.getLsbD_shiftLeft, BitVec.getLsbD_setWidth]; interval_cases i <;> simp

@[simp] theorem packJI_pad : packJI c imm &&& Format.ji.padMask = 0 := by
  apply bits_ext; intro i hi
  simp only [packJI, Opcode.byte, Format.padMask, BitVec.getLsbD_and, BitVec.getLsbD_or, BitVec.getLsbD_shiftLeft,
    BitVec.getLsbD_setWidth]; interval_cases i <;> simp

end packJ

/-! ## The number a packed word is -/

theorem packR_toNat (o : Opcode) (d a b : BitVec 3) (c : Byte) :
    (packR o d a b c).toNat = o.byte.toNat + d.toNat * 2 ^ 8 + a.toNat * 2 ^ 12 + b.toNat * 2 ^ 16 + c.toNat * 2 ^ 24 := by
  have h : packR o d a b c =
      o.byte.setWidth 32 + d.setWidth 32 <<< 8 + a.setWidth 32 <<< 12 + b.setWidth 32 <<< 16 + c.setWidth 32 <<< 24 := by
    rw [packR]
    rw [← BitVec.add_eq_or_of_and_eq_zero, ← BitVec.add_eq_or_of_and_eq_zero, ← BitVec.add_eq_or_of_and_eq_zero,
      ← BitVec.add_eq_or_of_and_eq_zero]
    all_goals apply bits_ext; intro i hi; simp only [BitVec.getLsbD_and, BitVec.getLsbD_or, BitVec.getLsbD_shiftLeft,
      BitVec.getLsbD_setWidth]; interval_cases i <;> simp
  rw [h]
  bv_omega

theorem packI_toNat (o : Opcode) (d a : BitVec 3) (imm : Word) :
    (packI o d a imm).toNat = o.byte.toNat + d.toNat * 2 ^ 8 + a.toNat * 2 ^ 12 + imm.toNat * 2 ^ 16 := by
  have h : packI o d a imm = o.byte.setWidth 32 + d.setWidth 32 <<< 8 + a.setWidth 32 <<< 12 + imm.setWidth 32 <<< 16 := by
    rw [packI]
    rw [← BitVec.add_eq_or_of_and_eq_zero, ← BitVec.add_eq_or_of_and_eq_zero, ← BitVec.add_eq_or_of_and_eq_zero]
    all_goals apply bits_ext; intro i hi; simp only [BitVec.getLsbD_and, BitVec.getLsbD_or, BitVec.getLsbD_shiftLeft,
      BitVec.getLsbD_setWidth]; interval_cases i <;> simp
  rw [h]
  bv_omega

theorem packJ_toNat (c : Cond) (r : Reg) :
    (packJ c r).toNat = Opcode.branch.byte.toNat + c.code.toNat * 2 ^ 8 + r.num.toNat * 2 ^ 16 := by
  have h : packJ c r = Opcode.branch.byte.setWidth 32 + c.code.setWidth 32 <<< 8 + r.num.setWidth 32 <<< 16 := by
    rw [packJ]
    rw [← BitVec.add_eq_or_of_and_eq_zero, ← BitVec.add_eq_or_of_and_eq_zero]
    all_goals apply bits_ext; intro i hi; simp only [Opcode.byte, BitVec.getLsbD_and, BitVec.getLsbD_or, BitVec.getLsbD_shiftLeft,
      BitVec.getLsbD_setWidth]; interval_cases i <;> simp
  rw [h]
  bv_omega

theorem packJI_toNat (c : Cond) (imm : Word) :
    (packJI c imm).toNat = Opcode.branchI.byte.toNat + c.code.toNat * 2 ^ 8 + imm.toNat * 2 ^ 16 := by
  have h : packJI c imm = Opcode.branchI.byte.setWidth 32 + c.code.setWidth 32 <<< 8 + imm.setWidth 32 <<< 16 := by
    rw [packJI]
    rw [← BitVec.add_eq_or_of_and_eq_zero, ← BitVec.add_eq_or_of_and_eq_zero]
    all_goals apply bits_ext; intro i hi; simp only [Opcode.byte, BitVec.getLsbD_and, BitVec.getLsbD_or, BitVec.getLsbD_shiftLeft,
      BitVec.getLsbD_setWidth]; interval_cases i <;> simp
  rw [h]
  bv_omega

theorem constX_toNat (c x : Byte) :
    (constX c x).toNat = x.toNat + c.toNat * 2 ^ 8 := by
  have h : constX c x = x.setWidth 16 + c.setWidth 16 <<< 8 := by
    rw [constX]
    rw [← BitVec.add_eq_or_of_and_eq_zero]
    all_goals apply bits_ext; intro i hi; simp only [BitVec.getLsbD_and, BitVec.getLsbD_shiftLeft,
      BitVec.getLsbD_setWidth]; interval_cases i <;> simp
  rw [h]
  bv_omega

@[simp] theorem constX_low (c x : Byte) : (constX c x).extractLsb' 0 8 = x := by
  apply bits_ext; intro i hi; simp only [constX, BitVec.getLsbD_extractLsb', BitVec.getLsbD_or,
    BitVec.getLsbD_shiftLeft, BitVec.getLsbD_setWidth]; interval_cases i <;> simp

@[simp] theorem constX_high (c x : Byte) : (constX c x).extractLsb' 8 8 = c := by
  apply bits_ext; intro i hi; simp only [constX, BitVec.getLsbD_extractLsb', BitVec.getLsbD_or,
    BitVec.getLsbD_shiftLeft, BitVec.getLsbD_setWidth]; interval_cases i <;> simp

/-! ## Decoding, once -/

/-- What a word must be for the decoder to answer an instruction. -/
theorem decode_eq_ok_iff (w : InstrWord) (i : Instr) :
    decode w = .ok i ↔
      ∃ o : Opcode, o.byte = opcodeByte w ∧ (o.reserved = true ∨ w &&& o.format.padMask = 0) ∧ o.instr w = i := by
  unfold decode
  constructor
  · intro h
    split at h
    · cases h
    · next o ho =>
      refine ⟨o, Opcode.byte_of_ofByte ho, ?_⟩
      split at h
      · cases h
      · next hp =>
        simp only [padFault, Bool.and_eq_true, Bool.not_eq_true', bne_iff_ne, ne_eq, not_and, not_not] at hp
        refine ⟨?_, by simpa using h⟩
        cases hr : o.reserved
        · exact .inr (hp hr)
        · exact .inl rfl
  · rintro ⟨o, ho, hp, rfl⟩
    rw [← ho, Opcode.ofByte_byte]
    have : padFault Config.padMode o w = false := by
      rcases hp with hp | hp <;> simp [padFault, hp]
    simp [this]

/-- The decoder answers ReservedEncoding exactly for a defined opcode with a pad bit of its format set. -/
theorem decode_eq_reservedEncoding_iff (w : InstrWord) :
    decode w = .error .reservedEncoding ↔
      ∃ o : Opcode, o.byte = opcodeByte w ∧ o.reserved = false ∧ w &&& o.format.padMask ≠ 0 := by
  unfold decode
  constructor
  · intro h
    split at h
    · cases h
    · next o ho =>
      refine ⟨o, Opcode.byte_of_ofByte ho, ?_⟩
      split at h
      · next hp => simpa [padFault] using hp
      · cases h
  · rintro ⟨o, ho, hr, hp⟩
    rw [← ho, Opcode.ofByte_byte]
    simpa [padFault, hr] using hp

/-- The decoder answers IllegalInstruction exactly for an unassigned opcode. -/
theorem decode_eq_illegal_iff (w : InstrWord) :
    decode w = .error .illegalInstruction ↔ Opcode.ofByte (opcodeByte w) = none := by
  unfold decode
  split
  · next h => simp [h]
  · next o ho => split <;> simp [ho]

end Sys2Proof
end

