-- ==== Sys2Proof/Laws/State.lean ====
section
/-! SUPPORT. What each named update of State does to each field, and to the registers read one at a time. -/

namespace Sys2Proof.Machine

@[simp] theorem State.setReg_regs (s : State) (r : Reg) (v : Word) : (s.setReg r v).regs = s.regs.set r v := rfl
@[simp] theorem State.setReg_pc (s : State) (r : Reg) (v : Word) : (s.setReg r v).pc = s.pc := rfl
@[simp] theorem State.setReg_flags (s : State) (r : Reg) (v : Word) : (s.setReg r v).flags = s.flags := rfl
@[simp] theorem State.setReg_mem (s : State) (r : Reg) (v : Word) : (s.setReg r v).mem = s.mem := rfl
@[simp] theorem State.setReg_scn (s : State) (r : Reg) (v : Word) : (s.setReg r v).scn = s.scn := rfl
@[simp] theorem State.setReg_scnLog (s : State) (r : Reg) (v : Word) : (s.setReg r v).scnLog = s.scnLog := rfl
@[simp] theorem State.setReg_imem (s : State) (r : Reg) (v : Word) : (s.setReg r v).imem = s.imem := rfl

@[simp] theorem State.setFlags_regs (s : State) (f : Flags) : (s.setFlags f).regs = s.regs := rfl
@[simp] theorem State.setFlags_pc (s : State) (f : Flags) : (s.setFlags f).pc = s.pc := rfl
@[simp] theorem State.setFlags_flags (s : State) (f : Flags) : (s.setFlags f).flags = f := rfl
@[simp] theorem State.setFlags_mem (s : State) (f : Flags) : (s.setFlags f).mem = s.mem := rfl
@[simp] theorem State.setFlags_scn (s : State) (f : Flags) : (s.setFlags f).scn = s.scn := rfl
@[simp] theorem State.setFlags_scnLog (s : State) (f : Flags) : (s.setFlags f).scnLog = s.scnLog := rfl
@[simp] theorem State.setFlags_imem (s : State) (f : Flags) : (s.setFlags f).imem = s.imem := rfl

@[simp] theorem State.setPc_regs (s : State) (t : Word) : (s.setPc t).regs = s.regs := rfl
@[simp] theorem State.setPc_pc (s : State) (t : Word) : (s.setPc t).pc = t := rfl
@[simp] theorem State.setPc_flags (s : State) (t : Word) : (s.setPc t).flags = s.flags := rfl
@[simp] theorem State.setPc_mem (s : State) (t : Word) : (s.setPc t).mem = s.mem := rfl
@[simp] theorem State.setPc_scn (s : State) (t : Word) : (s.setPc t).scn = s.scn := rfl
@[simp] theorem State.setPc_scnLog (s : State) (t : Word) : (s.setPc t).scnLog = s.scnLog := rfl
@[simp] theorem State.setPc_imem (s : State) (t : Word) : (s.setPc t).imem = s.imem := rfl

@[simp] theorem State.advance_regs (s : State) : s.advance.regs = s.regs := rfl
@[simp] theorem State.advance_pc (s : State) : s.advance.pc = s.pc + 1 := rfl
@[simp] theorem State.advance_flags (s : State) : s.advance.flags = s.flags := rfl
@[simp] theorem State.advance_mem (s : State) : s.advance.mem = s.mem := rfl
@[simp] theorem State.advance_scn (s : State) : s.advance.scn = s.scn := rfl
@[simp] theorem State.advance_scnLog (s : State) : s.advance.scnLog = s.scnLog := rfl
@[simp] theorem State.advance_imem (s : State) : s.advance.imem = s.imem := rfl

@[simp] theorem State.setMem_regs (s : State) (k : Nat) (v : Word) : (s.setMem k v).regs = s.regs := rfl
@[simp] theorem State.setMem_pc (s : State) (k : Nat) (v : Word) : (s.setMem k v).pc = s.pc := rfl
@[simp] theorem State.setMem_flags (s : State) (k : Nat) (v : Word) : (s.setMem k v).flags = s.flags := rfl
@[simp] theorem State.setMem_mem (s : State) (k : Nat) (v : Word) : (s.setMem k v).mem = s.mem.write k v := rfl
@[simp] theorem State.setMem_scn (s : State) (k : Nat) (v : Word) : (s.setMem k v).scn = s.scn := rfl
@[simp] theorem State.setMem_scnLog (s : State) (k : Nat) (v : Word) : (s.setMem k v).scnLog = s.scnLog := rfl
@[simp] theorem State.setMem_imem (s : State) (k : Nat) (v : Word) : (s.setMem k v).imem = s.imem := rfl

@[simp] theorem State.setScn_regs (s : State) (p : Word) (c : ScnCell) : (s.setScn p c).regs = s.regs := rfl
@[simp] theorem State.setScn_pc (s : State) (p : Word) (c : ScnCell) : (s.setScn p c).pc = s.pc := rfl
@[simp] theorem State.setScn_flags (s : State) (p : Word) (c : ScnCell) : (s.setScn p c).flags = s.flags := rfl
@[simp] theorem State.setScn_mem (s : State) (p : Word) (c : ScnCell) : (s.setScn p c).mem = s.mem := rfl
@[simp] theorem State.setScn_scn (s : State) (p : Word) (c : ScnCell) : (s.setScn p c).scn = s.scn.write p.toNat c := rfl
@[simp] theorem State.setScn_scnLog (s : State) (p : Word) (c : ScnCell) : (s.setScn p c).scnLog = s.scnLog ++ [⟨p, c⟩] := rfl
@[simp] theorem State.setScn_imem (s : State) (p : Word) (c : ScnCell) : (s.setScn p c).imem = s.imem := rfl

@[simp] theorem Regs.get_set (x : Regs) (r q : Reg) (v : Word) :
    (x.set r v).get q = if q = r then v else x.get q := by
  cases r <;> cases q <;> rfl

/-- Two register files with equal registers are equal. -/
theorem Regs.ext_get {x y : Regs} (h : ∀ r, x.get r = y.get r) : x = y := by
  have h0 := h .x0; have h1 := h .x1; have h2 := h .x2; have h3 := h .x3
  have h4 := h .x4; have h5 := h .x5; have h6 := h .x6; have h7 := h .x7
  cases x; cases y
  simp_all [Regs.get]

theorem Regs.set_get_self (x : Regs) (r : Reg) : x.set r (x.get r) = x := by
  apply Regs.ext_get
  intro q
  by_cases h : q = r <;> simp [h]

@[simp] theorem State.setReg_reg (s : State) (r q : Reg) (v : Word) :
    (s.setReg r v).reg q = if q = r then v else s.reg q := by
  simp [State.reg]

@[simp] theorem State.setFlags_reg (s : State) (f : Flags) (q : Reg) : (s.setFlags f).reg q = s.reg q := rfl
@[simp] theorem State.setPc_reg (s : State) (t : Word) (q : Reg) : (s.setPc t).reg q = s.reg q := rfl
@[simp] theorem State.advance_reg (s : State) (q : Reg) : s.advance.reg q = s.reg q := rfl
@[simp] theorem State.setMem_reg (s : State) (k : Nat) (v : Word) (q : Reg) : (s.setMem k v).reg q = s.reg q := rfl
@[simp] theorem State.setScn_reg (s : State) (p : Word) (c : ScnCell) (q : Reg) : (s.setScn p c).reg q = s.reg q := rfl

/-- Fetch looks at pc and IMEM only. -/
theorem State.fetch_eq (s : State) : s.fetch = s.imem.read s.pc.toNat := rfl

@[simp] theorem State.setPc_self (s : State) : s.setPc s.pc = s := rfl

end Sys2Proof.Machine
end

