-- ==== Sys2Proof/Laws/Ops.lean ====
section
/-! SUPPORT. For each shared operation, once, everything it can do: cite these instead of unfolding it. -/

namespace Sys2Proof.Machine

/-! ## MemRead and MemWrite addresses -/

theorem memIndex_fault (addr : Word) :
    memIndex .fault addr = if addr.toNat < 256 then some addr.toNat else none := rfl

theorem memIndex_some {addr : Word} {k : Nat} (h : memIndex Config.memAddrMode addr = some k) :
    k = addr.toNat ∧ k < 256 := by
  rw [memIndex_fault] at h
  split at h
  · simp only [Option.some.injEq] at h; subst h; exact ⟨rfl, by assumption⟩
  · cases h

theorem memIndex_none_iff (addr : Word) : memIndex Config.memAddrMode addr = none ↔ 256 ≤ addr.toNat := by
  rw [memIndex_fault]
  split <;> simp <;> omega

/-! ## The shared operations -/

theorem raise_ne_next (kind : Word → InstrWord → Fault) (s t : State) : raise kind s ≠ .next t := nofun

theorem raise_ne_refused (kind : Word → InstrWord → Fault) (s : State) (r : Refusal) : raise kind s ≠ .refused r := nofun

theorem writeResult_eq (d : Reg) (v : Word) (s : State) : writeResult d v s = .next (s.setReg d v).advance := rfl

/-- A load reads a location that exists, or faults with the address. -/
theorem loadWord_cases (d : Reg) (ea : Word) (s : State) :
    (ea.toNat < 256 ∧ loadWord d ea s = .next (s.setReg d (s.mem.read ea.toNat)).advance) ∨
    (256 ≤ ea.toNat ∧ loadWord d ea s = .fault (.addressOutOfRange s.pc s.fetch ea)) := by
  unfold loadWord
  split
  · next h => exact .inr ⟨(memIndex_none_iff ea).mp h, rfl⟩
  · next h => obtain ⟨rfl, hk⟩ := memIndex_some h; exact .inl ⟨hk, rfl⟩

/-- A store writes a location that exists, or faults with the address. -/
theorem storeWord_cases (ea v : Word) (s : State) :
    (ea.toNat < 256 ∧ storeWord ea v s = .next (s.setMem ea.toNat v).advance) ∨
    (256 ≤ ea.toNat ∧ storeWord ea v s = .fault (.addressOutOfRange s.pc s.fetch ea)) := by
  unfold storeWord
  split
  · next h => exact .inr ⟨(memIndex_none_iff ea).mp h, rfl⟩
  · next h => obtain ⟨rfl, hk⟩ := memIndex_some h; exact .inl ⟨hk, rfl⟩

/-- With SCN_SIZE = 65536 a print never faults. -/
theorem printCell_eq (pos : Word) (kind : ScnKind) (v : Word) (s : State) :
    printCell pos kind v s = .next (s.setScn pos ⟨kind, v⟩).advance := by
  unfold printCell
  rw [if_pos (show pos.toNat < 65536 from pos.isLt)]

theorem compareWords_eq (a b : Word) (s : State) : compareWords a b s = .next (s.setFlags (cmpFlags a b)).advance := rfl

/-- The condition has no meaning only for code 0xF. -/
theorem condHolds_none_iff (c : Cond) (f : Flags) : condHolds c f = none ↔ c = .reservedF := by
  cases c <;> simp [condHolds]

/-- A branch goes to its target, or steps the pc, or faults on condition 0xF. -/
theorem branchTo_cases (c : Cond) (target : Word) (s : State) :
    (condHolds c s.flags = some true ∧ branchTo c target s = .next (s.setPc target)) ∨
    (condHolds c s.flags = some false ∧ branchTo c target s = .next s.advance) ∨
    (c = .reservedF ∧ branchTo c target s = .fault (.reservedCondition s.pc s.fetch)) := by
  unfold branchTo
  split
  · next h => exact .inr (.inr ⟨(condHolds_none_iff c _).mp h, rfl⟩)
  · next h => exact .inl ⟨h, rfl⟩
  · next h => exact .inr (.inl ⟨h, rfl⟩)

/-! ## The canonical form under the updates of State -/

theorem State.wf_iff (s : State) : s.wf = true ↔ s.mem.wf = true ∧ s.scn.wf = true ∧ s.imem.wf = true := by
  simp [State.wf, and_assoc]

theorem State.wf_congr {s t : State} (hm : t.mem = s.mem) (hs : t.scn = s.scn) (hi : t.imem = s.imem) : t.wf = s.wf := by
  simp [State.wf, hm, hs, hi]

theorem State.wf_setMem {s : State} (h : s.wf = true) {k : Nat} (hk : k < 256) (v : Word) : (s.setMem k v).wf = true := by
  rw [State.wf_iff] at h ⊢
  exact ⟨Memory.wf_write h.1 hk v, h.2.1, h.2.2⟩

theorem State.wf_setScn {s : State} (h : s.wf = true) (p : Word) (c : ScnCell) : (s.setScn p c).wf = true := by
  rw [State.wf_iff] at h ⊢
  exact ⟨h.1, Screen.wf_write h.2.1 p.isLt c, h.2.2⟩

end Sys2Proof.Machine
end

