-- ==== Sys2Proof/Laws/PerInstr.lean ====
section
/-! SUPPORT. Families of lemmas with one member for each instruction. `OpcodeByte`: byte 0 of an instruction's word is the opcode
of its row (30_encoding.md R68, R69). -/

namespace Sys2Proof.Laws

/-- Byte 0 of the canonical word is the opcode byte. -/
def OpcodeByte.Statement (i : Instr) : Prop := opcodeByte (encode i) = i.opcode.byte

theorem OpcodeByte.aluAnd (dst : Reg) (a : Reg) (b : Reg) : OpcodeByte.Statement (.aluAnd dst a b) := packR_opcode _ _ _ _ _
theorem OpcodeByte.aluOr (dst : Reg) (a : Reg) (b : Reg) : OpcodeByte.Statement (.aluOr dst a b) := packR_opcode _ _ _ _ _
theorem OpcodeByte.aluXor (dst : Reg) (a : Reg) (b : Reg) : OpcodeByte.Statement (.aluXor dst a b) := packR_opcode _ _ _ _ _
theorem OpcodeByte.aluNot (dst : Reg) (a : Reg) : OpcodeByte.Statement (.aluNot dst a) := packR_opcode _ _ _ _ _
theorem OpcodeByte.aluAdd (dst : Reg) (a : Reg) (b : Reg) : OpcodeByte.Statement (.aluAdd dst a b) := packR_opcode _ _ _ _ _
theorem OpcodeByte.aluSub (dst : Reg) (a : Reg) (b : Reg) : OpcodeByte.Statement (.aluSub dst a b) := packR_opcode _ _ _ _ _
theorem OpcodeByte.aluLsl (dst : Reg) (a : Reg) (b : Reg) : OpcodeByte.Statement (.aluLsl dst a b) := packR_opcode _ _ _ _ _
theorem OpcodeByte.aluLsr (dst : Reg) (a : Reg) (b : Reg) : OpcodeByte.Statement (.aluLsr dst a b) := packR_opcode _ _ _ _ _
theorem OpcodeByte.aluBcdl (dst : Reg) (a : Reg) : OpcodeByte.Statement (.aluBcdl dst a) := packR_opcode _ _ _ _ _
theorem OpcodeByte.aluBcdh (dst : Reg) (a : Reg) : OpcodeByte.Statement (.aluBcdh dst a) := packR_opcode _ _ _ _ _
theorem OpcodeByte.aluUmulL (dst : Reg) (a : Reg) (b : Reg) : OpcodeByte.Statement (.aluUmulL dst a b) := packR_opcode _ _ _ _ _
theorem OpcodeByte.aluUmulH (dst : Reg) (a : Reg) (b : Reg) : OpcodeByte.Statement (.aluUmulH dst a b) := packR_opcode _ _ _ _ _
theorem OpcodeByte.aluMulL (dst : Reg) (a : Reg) (b : Reg) : OpcodeByte.Statement (.aluMulL dst a b) := packR_opcode _ _ _ _ _
theorem OpcodeByte.aluMulH (dst : Reg) (a : Reg) (b : Reg) : OpcodeByte.Statement (.aluMulH dst a b) := packR_opcode _ _ _ _ _
theorem OpcodeByte.aluNul0E : OpcodeByte.Statement .aluNul0E := packR_opcode _ _ _ _ _
theorem OpcodeByte.aluNul0F : OpcodeByte.Statement .aluNul0F := packR_opcode _ _ _ _ _
theorem OpcodeByte.aluAndI (dst : Reg) (a : Reg) (imm : Word) : OpcodeByte.Statement (.aluAndI dst a imm) := packI_opcode _ _ _ _
theorem OpcodeByte.aluOrI (dst : Reg) (a : Reg) (imm : Word) : OpcodeByte.Statement (.aluOrI dst a imm) := packI_opcode _ _ _ _
theorem OpcodeByte.aluXorI (dst : Reg) (a : Reg) (imm : Word) : OpcodeByte.Statement (.aluXorI dst a imm) := packI_opcode _ _ _ _
theorem OpcodeByte.aluNotI (dst : Reg) (a : Reg) : OpcodeByte.Statement (.aluNotI dst a) := packI_opcode _ _ _ _
theorem OpcodeByte.aluAddI (dst : Reg) (a : Reg) (imm : Word) : OpcodeByte.Statement (.aluAddI dst a imm) := packI_opcode _ _ _ _
theorem OpcodeByte.aluSubI (dst : Reg) (a : Reg) (imm : Word) : OpcodeByte.Statement (.aluSubI dst a imm) := packI_opcode _ _ _ _
theorem OpcodeByte.aluLslI (dst : Reg) (a : Reg) (imm : Word) : OpcodeByte.Statement (.aluLslI dst a imm) := packI_opcode _ _ _ _
theorem OpcodeByte.aluLsrI (dst : Reg) (a : Reg) (imm : Word) : OpcodeByte.Statement (.aluLsrI dst a imm) := packI_opcode _ _ _ _
theorem OpcodeByte.aluBcdlI (dst : Reg) (a : Reg) : OpcodeByte.Statement (.aluBcdlI dst a) := packI_opcode _ _ _ _
theorem OpcodeByte.aluBcdhI (dst : Reg) (a : Reg) : OpcodeByte.Statement (.aluBcdhI dst a) := packI_opcode _ _ _ _
theorem OpcodeByte.aluUmulLI (dst : Reg) (a : Reg) (imm : Word) : OpcodeByte.Statement (.aluUmulLI dst a imm) := packI_opcode _ _ _ _
theorem OpcodeByte.aluUmulHI (dst : Reg) (a : Reg) (imm : Word) : OpcodeByte.Statement (.aluUmulHI dst a imm) := packI_opcode _ _ _ _
theorem OpcodeByte.aluMulLI (dst : Reg) (a : Reg) (imm : Word) : OpcodeByte.Statement (.aluMulLI dst a imm) := packI_opcode _ _ _ _
theorem OpcodeByte.aluMulHI (dst : Reg) (a : Reg) (imm : Word) : OpcodeByte.Statement (.aluMulHI dst a imm) := packI_opcode _ _ _ _
theorem OpcodeByte.aluNul0EI : OpcodeByte.Statement .aluNul0EI := packI_opcode _ _ _ _
theorem OpcodeByte.aluNul0FI : OpcodeByte.Statement .aluNul0FI := packI_opcode _ _ _ _
theorem OpcodeByte.move (dst : Reg) (b : Reg) : OpcodeByte.Statement (.move dst b) := packR_opcode _ _ _ _ _
theorem OpcodeByte.moveI (dst : Reg) (imm : Word) : OpcodeByte.Statement (.moveI dst imm) := packI_opcode _ _ _ _
theorem OpcodeByte.cmp (a : Reg) (b : Reg) : OpcodeByte.Statement (.cmp a b) := packR_opcode _ _ _ _ _
theorem OpcodeByte.cmpI (a : Reg) (imm : Word) : OpcodeByte.Statement (.cmpI a imm) := packI_opcode _ _ _ _
theorem OpcodeByte.branch (cond : Cond) (reg : Reg) : OpcodeByte.Statement (.branch cond reg) := packJ_opcode _ _
theorem OpcodeByte.branchI (cond : Cond) (imm : Word) : OpcodeByte.Statement (.branchI cond imm) := packJI_opcode _ _
theorem OpcodeByte.read (dst : Reg) (b : Reg) : OpcodeByte.Statement (.read dst b) := packR_opcode _ _ _ _ _
theorem OpcodeByte.readI (dst : Reg) (imm : Word) : OpcodeByte.Statement (.readI dst imm) := packI_opcode _ _ _ _
theorem OpcodeByte.write (a : Reg) (b : Reg) : OpcodeByte.Statement (.write a b) := packR_opcode _ _ _ _ _
theorem OpcodeByte.writeI (a : Reg) (imm : Word) : OpcodeByte.Statement (.writeI a imm) := packI_opcode _ _ _ _
theorem OpcodeByte.printReg (a : Reg) (b : Reg) : OpcodeByte.Statement (.printReg a b) := packR_opcode _ _ _ _ _
theorem OpcodeByte.printRegI (a : Reg) (imm : Word) : OpcodeByte.Statement (.printRegI a imm) := packI_opcode _ _ _ _
theorem OpcodeByte.printCns (b : Reg) (c : Byte) : OpcodeByte.Statement (.printCns b c) := packR_opcode _ _ _ _ _
theorem OpcodeByte.printCnsI (x : Byte) (c : Byte) : OpcodeByte.Statement (.printCnsI x c) := packI_opcode _ _ _ _
theorem OpcodeByte.b (reg : Reg) : OpcodeByte.Statement (.b reg) := packJ_opcode _ _
theorem OpcodeByte.beq (reg : Reg) : OpcodeByte.Statement (.beq reg) := packJ_opcode _ _
theorem OpcodeByte.bne (reg : Reg) : OpcodeByte.Statement (.bne reg) := packJ_opcode _ _
theorem OpcodeByte.blt (reg : Reg) : OpcodeByte.Statement (.blt reg) := packJ_opcode _ _
theorem OpcodeByte.ble (reg : Reg) : OpcodeByte.Statement (.ble reg) := packJ_opcode _ _
theorem OpcodeByte.bgt (reg : Reg) : OpcodeByte.Statement (.bgt reg) := packJ_opcode _ _
theorem OpcodeByte.bge (reg : Reg) : OpcodeByte.Statement (.bge reg) := packJ_opcode _ _
theorem OpcodeByte.bcs (reg : Reg) : OpcodeByte.Statement (.bcs reg) := packJ_opcode _ _
theorem OpcodeByte.bcc (reg : Reg) : OpcodeByte.Statement (.bcc reg) := packJ_opcode _ _
theorem OpcodeByte.bmi (reg : Reg) : OpcodeByte.Statement (.bmi reg) := packJ_opcode _ _
theorem OpcodeByte.bpl (reg : Reg) : OpcodeByte.Statement (.bpl reg) := packJ_opcode _ _
theorem OpcodeByte.bvs (reg : Reg) : OpcodeByte.Statement (.bvs reg) := packJ_opcode _ _
theorem OpcodeByte.bvc (reg : Reg) : OpcodeByte.Statement (.bvc reg) := packJ_opcode _ _
theorem OpcodeByte.bhi (reg : Reg) : OpcodeByte.Statement (.bhi reg) := packJ_opcode _ _
theorem OpcodeByte.bls (reg : Reg) : OpcodeByte.Statement (.bls reg) := packJ_opcode _ _
theorem OpcodeByte.bImm (imm : Word) : OpcodeByte.Statement (.bImm imm) := packJI_opcode _ _
theorem OpcodeByte.beqImm (imm : Word) : OpcodeByte.Statement (.beqImm imm) := packJI_opcode _ _
theorem OpcodeByte.bneImm (imm : Word) : OpcodeByte.Statement (.bneImm imm) := packJI_opcode _ _
theorem OpcodeByte.bltImm (imm : Word) : OpcodeByte.Statement (.bltImm imm) := packJI_opcode _ _
theorem OpcodeByte.bleImm (imm : Word) : OpcodeByte.Statement (.bleImm imm) := packJI_opcode _ _
theorem OpcodeByte.bgtImm (imm : Word) : OpcodeByte.Statement (.bgtImm imm) := packJI_opcode _ _
theorem OpcodeByte.bgeImm (imm : Word) : OpcodeByte.Statement (.bgeImm imm) := packJI_opcode _ _
theorem OpcodeByte.bcsImm (imm : Word) : OpcodeByte.Statement (.bcsImm imm) := packJI_opcode _ _
theorem OpcodeByte.bccImm (imm : Word) : OpcodeByte.Statement (.bccImm imm) := packJI_opcode _ _
theorem OpcodeByte.bmiImm (imm : Word) : OpcodeByte.Statement (.bmiImm imm) := packJI_opcode _ _
theorem OpcodeByte.bplImm (imm : Word) : OpcodeByte.Statement (.bplImm imm) := packJI_opcode _ _
theorem OpcodeByte.bvsImm (imm : Word) : OpcodeByte.Statement (.bvsImm imm) := packJI_opcode _ _
theorem OpcodeByte.bvcImm (imm : Word) : OpcodeByte.Statement (.bvcImm imm) := packJI_opcode _ _
theorem OpcodeByte.bhiImm (imm : Word) : OpcodeByte.Statement (.bhiImm imm) := packJI_opcode _ _
theorem OpcodeByte.blsImm (imm : Word) : OpcodeByte.Statement (.blsImm imm) := packJI_opcode _ _

end Sys2Proof.Laws
end

