-- ==== Sys2Proof/Tests/Slice0.lean ====
section
/-! SUPPORT. The model's own tests, each about one word or one step, with expected results from 95_test_vectors.md or worked by
hand from the rule named; then the witnesses that the hypotheses of the obligations can be met. -/

namespace Sys2Proof.Tests

open Sys2Proof.Machine Sys2Proof.Claims

/-! ## WellFormed: BRANCH and BRANCH_I keep only the condition that has no mnemonic row -/

theorem test_wellFormed_refuses_branch_beq : (Instr.branch .beq .x0).wellFormed = false := by decide
theorem test_wellFormed_refuses_branchI_bls : (Instr.branchI .bls 100).wellFormed = false := by decide
theorem test_wellFormed_accepts_branch_reserved : (Instr.branch .reservedF .x7).wellFormed = true := by decide
theorem test_wellFormed_accepts_branchI_reserved : (Instr.branchI .reservedF 0xFFFF).wellFormed = true := by decide

/-! ## Decoding: a word of every constructor, from 95_test_vectors.md section 1; the branch rows worked from R58, R59 and R67 -/

theorem test_decode_aluAnd : decode 0x00021000 = .ok (.aluAnd .x0 .x1 .x2) := by decide
theorem test_decode_aluOr : decode 0x00021001 = .ok (.aluOr .x0 .x1 .x2) := by decide
theorem test_decode_aluXor : decode 0x00021002 = .ok (.aluXor .x0 .x1 .x2) := by decide
theorem test_decode_aluNot : decode 0x00000003 = .ok (.aluNot .x0 .x0) := by decide
theorem test_decode_aluAdd : decode 0x00021004 = .ok (.aluAdd .x0 .x1 .x2) := by decide
theorem test_decode_aluSub : decode 0x00021005 = .ok (.aluSub .x0 .x1 .x2) := by decide
theorem test_decode_aluLsl : decode 0x00021006 = .ok (.aluLsl .x0 .x1 .x2) := by decide
theorem test_decode_aluLsr : decode 0x00021007 = .ok (.aluLsr .x0 .x1 .x2) := by decide
theorem test_decode_aluBcdl : decode 0x00001008 = .ok (.aluBcdl .x0 .x1) := by decide
theorem test_decode_aluBcdh : decode 0x00001009 = .ok (.aluBcdh .x0 .x1) := by decide
theorem test_decode_aluUmulL : decode 0x0002100A = .ok (.aluUmulL .x0 .x1 .x2) := by decide
theorem test_decode_aluUmulH : decode 0x0002100B = .ok (.aluUmulH .x0 .x1 .x2) := by decide
theorem test_decode_aluMulL : decode 0x0002100C = .ok (.aluMulL .x0 .x1 .x2) := by decide
theorem test_decode_aluMulH : decode 0x0002100D = .ok (.aluMulH .x0 .x1 .x2) := by decide
theorem test_decode_aluNul0E : decode 0x0000000E = .ok .aluNul0E := by decide
theorem test_decode_aluNul0F : decode 0x0000000F = .ok .aluNul0F := by decide
theorem test_decode_aluAndI : decode 0x00FF1010 = .ok (.aluAndI .x0 .x1 0x00FF) := by decide
theorem test_decode_aluOrI : decode 0x00101011 = .ok (.aluOrI .x0 .x1 0x0010) := by decide
theorem test_decode_aluXorI : decode 0xFFFF1012 = .ok (.aluXorI .x0 .x1 0xFFFF) := by decide
theorem test_decode_aluNotI : decode 0x00000013 = .ok (.aluNotI .x0 .x0) := by decide
theorem test_decode_aluAddI : decode 0x00051014 = .ok (.aluAddI .x0 .x1 0x0005) := by decide
theorem test_decode_aluSubI : decode 0x000A1015 = .ok (.aluSubI .x0 .x1 0x000A) := by decide
theorem test_decode_aluLslI : decode 0x00031016 = .ok (.aluLslI .x0 .x1 0x0003) := by decide
theorem test_decode_aluLsrI : decode 0x00021017 = .ok (.aluLsrI .x0 .x1 0x0002) := by decide
theorem test_decode_aluBcdlI : decode 0x00001018 = .ok (.aluBcdlI .x0 .x1) := by decide
theorem test_decode_aluBcdhI : decode 0x00001019 = .ok (.aluBcdhI .x0 .x1) := by decide
theorem test_decode_aluUmulLI : decode 0x0003101A = .ok (.aluUmulLI .x0 .x1 0x0003) := by decide
theorem test_decode_aluUmulHI : decode 0x0003101B = .ok (.aluUmulHI .x0 .x1 0x0003) := by decide
theorem test_decode_aluMulLI : decode 0xFFFE101C = .ok (.aluMulLI .x0 .x1 0xFFFE) := by decide
theorem test_decode_aluMulHI : decode 0xFFFE101D = .ok (.aluMulHI .x0 .x1 0xFFFE) := by decide
theorem test_decode_aluNul0EI : decode 0x0000001E = .ok .aluNul0EI := by decide
theorem test_decode_aluNul0FI : decode 0x0000001F = .ok .aluNul0FI := by decide
theorem test_decode_move : decode 0x00010040 = .ok (.move .x0 .x1) := by decide
theorem test_decode_moveI : decode 0x00640041 = .ok (.moveI .x0 0x0064) := by decide
theorem test_decode_cmp : decode 0x00010042 = .ok (.cmp .x0 .x1) := by decide
theorem test_decode_cmpI : decode 0x002A0043 = .ok (.cmpI .x0 0x002A) := by decide
theorem test_decode_read : decode 0x00010046 = .ok (.read .x0 .x1) := by decide
theorem test_decode_readI : decode 0x00320047 = .ok (.readI .x0 0x0032) := by decide
theorem test_decode_write : decode 0x00010048 = .ok (.write .x0 .x1) := by decide
theorem test_decode_writeI : decode 0x00320049 = .ok (.writeI .x0 0x0032) := by decide
theorem test_decode_printReg : decode 0x0000104A = .ok (.printReg .x1 .x0) := by decide
theorem test_decode_printRegI : decode 0x000A004B = .ok (.printRegI .x0 0x000A) := by decide
theorem test_decode_printCns : decode 0x4100004C = .ok (.printCns .x0 0x41) := by decide
theorem test_decode_printCnsI : decode 0x4805004D = .ok (.printCnsI 0x05 0x48) := by decide
theorem test_decode_b : decode 0x00050044 = .ok (.b .x5) := by decide
theorem test_decode_beq : decode 0x00050144 = .ok (.beq .x5) := by decide
theorem test_decode_bne : decode 0x00050244 = .ok (.bne .x5) := by decide
theorem test_decode_blt : decode 0x00050344 = .ok (.blt .x5) := by decide
theorem test_decode_ble : decode 0x00050444 = .ok (.ble .x5) := by decide
theorem test_decode_bgt : decode 0x00050544 = .ok (.bgt .x5) := by decide
theorem test_decode_bge : decode 0x00050644 = .ok (.bge .x5) := by decide
theorem test_decode_bcs : decode 0x00050744 = .ok (.bcs .x5) := by decide
theorem test_decode_bcc : decode 0x00050844 = .ok (.bcc .x5) := by decide
theorem test_decode_bmi : decode 0x00050944 = .ok (.bmi .x5) := by decide
theorem test_decode_bpl : decode 0x00050A44 = .ok (.bpl .x5) := by decide
theorem test_decode_bvs : decode 0x00050B44 = .ok (.bvs .x5) := by decide
theorem test_decode_bvc : decode 0x00050C44 = .ok (.bvc .x5) := by decide
theorem test_decode_bhi : decode 0x00050D44 = .ok (.bhi .x5) := by decide
theorem test_decode_bls : decode 0x00050E44 = .ok (.bls .x5) := by decide
theorem test_decode_bImm : decode 0xBEEF0045 = .ok (.bImm 0xBEEF) := by decide
theorem test_decode_beqImm : decode 0xBEEF0145 = .ok (.beqImm 0xBEEF) := by decide
theorem test_decode_bneImm : decode 0xBEEF0245 = .ok (.bneImm 0xBEEF) := by decide
theorem test_decode_bltImm : decode 0xBEEF0345 = .ok (.bltImm 0xBEEF) := by decide
theorem test_decode_bleImm : decode 0xBEEF0445 = .ok (.bleImm 0xBEEF) := by decide
theorem test_decode_bgtImm : decode 0xBEEF0545 = .ok (.bgtImm 0xBEEF) := by decide
theorem test_decode_bgeImm : decode 0xBEEF0645 = .ok (.bgeImm 0xBEEF) := by decide
theorem test_decode_bcsImm : decode 0xBEEF0745 = .ok (.bcsImm 0xBEEF) := by decide
theorem test_decode_bccImm : decode 0xBEEF0845 = .ok (.bccImm 0xBEEF) := by decide
theorem test_decode_bmiImm : decode 0xBEEF0945 = .ok (.bmiImm 0xBEEF) := by decide
theorem test_decode_bplImm : decode 0xBEEF0A45 = .ok (.bplImm 0xBEEF) := by decide
theorem test_decode_bvsImm : decode 0xBEEF0B45 = .ok (.bvsImm 0xBEEF) := by decide
theorem test_decode_bvcImm : decode 0xBEEF0C45 = .ok (.bvcImm 0xBEEF) := by decide
theorem test_decode_bhiImm : decode 0xBEEF0D45 = .ok (.bhiImm 0xBEEF) := by decide
theorem test_decode_blsImm : decode 0xBEEF0E45 = .ok (.blsImm 0xBEEF) := by decide
theorem test_decode_branch : decode 0x00070F44 = .ok (.branch .reservedF .x7) := by decide
theorem test_decode_branchI : decode 0x80010F45 = .ok (.branchI .reservedF 0x8001) := by decide

/-! ## Decoding: every field at its own place, ignored bits, and what is rejected (R62, R63, R74, R172) -/

theorem test_decode_fields_R : decode 0xFFF57304 = .ok (.aluAdd .x3 .x7 .x5) := by decide
theorem test_decode_fields_I : decode 0x80015614 = .ok (.aluAddI .x6 .x5 0x8001) := by decide
theorem test_decode_move_ignores_a : decode 0x00017040 = .ok (.move .x0 .x1) := by decide
theorem test_decode_cmp_ignores_dst : decode 0x00010742 = .ok (.cmp .x0 .x1) := by decide
theorem test_decode_printCns_ignores_hole : decode 0x41F0004C = .ok (.printCns .x0 0x41) := by decide
theorem test_decode_imm_bit_is_no_pad : decode 0x00080014 = .ok (.aluAddI .x0 .x0 8) := by decide
theorem test_decode_unassigned_first : decode 0x00000020 = .error .illegalInstruction := by decide
theorem test_decode_unassigned_gap_end : decode 0x0000003F = .error .illegalInstruction := by decide
theorem test_decode_unassigned_after_last : decode 0x0000004E = .error .illegalInstruction := by decide
theorem test_decode_filler : decode 0xFFFFFFFF = .error .illegalInstruction := by decide
theorem test_decode_pad11 : decode 0x00000804 = .error .reservedEncoding := by decide
theorem test_decode_pad15 : decode 0x00008004 = .error .reservedEncoding := by decide
theorem test_decode_pad19 : decode 0x00080004 = .error .reservedEncoding := by decide
theorem test_decode_branch_pad12 : decode 0x00001044 = .error .reservedEncoding := by decide
theorem test_decode_branchI_pad_before_condition : decode 0x0000FF45 = .error .reservedEncoding := by decide
theorem test_decode_reserved_before_pad : decode 0x0000080E = .ok .aluNul0E := by decide
theorem test_decodeTableWord_narrow : decodeTableWord 8 0x1F = some .aluNul0FI := by decide

/-! ## One step of each instruction: 95_test_vectors.md section 2 -/

/-- The state of a test: the listed registers, flags (Z, N, C, V) and one MEM word, with the word at pc. -/
def given (w : InstrWord) (x : Regs) (f : Flags := ⟨false, false, false, false⟩) (mem : Memory := []) (pc : Word := 0x0010) : State :=
  { regs := x, pc := pc, flags := f, mem := mem, scn := [], scnLog := [], imem := [(pc.toNat, w)] }

/-- What a test looks at: one register and the pc after the step. -/
def regPc (r : Reg) (o : Result) : Option (Word × Word) :=
  match o with
  | .next t => some (t.reg r, t.pc)
  | _ => none

/-- The flags and the pc after the step. -/
def flagsPc (o : Result) : Option (Flags × Word) :=
  match o with
  | .next t => some (t.flags, t.pc)
  | _ => none

/-- The words written to MEM, the cells written to SCN and the pc after the step. -/
def outPc (o : Result) : Option (Memory × Screen × Word) :=
  match o with
  | .next t => some (t.mem, t.scn, t.pc)
  | _ => none

/-- The fault the step ends in. -/
def faultOf (o : Result) : Option Fault :=
  match o with
  | .fault e => some e
  | _ => none

theorem test_aluAnd_a : regPc .x0 (step (given 0x00021000 ⟨0xA0A0, 0x0F0F, 0x00FF, 0xA0A3, 0xA0A4, 0xA0A5, 0xA0A6, 0xA0A7⟩)) = some (0x000F, 0x0011) := by decide
theorem test_aluAnd_b : regPc .x3 (step (given 0x00033300 ⟨0xA0A0, 0xA0A1, 0xA0A2, 0xA5A5, 0xA0A4, 0xA0A5, 0xA0A6, 0xA0A7⟩)) = some (0xA5A5, 0x0011) := by decide
theorem test_aluOr_a : regPc .x0 (step (given 0x00021001 ⟨0xA0A0, 0x0F00, 0x00F0, 0xA0A3, 0xA0A4, 0xA0A5, 0xA0A6, 0xA0A7⟩)) = some (0x0FF0, 0x0011) := by decide
theorem test_aluXor_a : regPc .x0 (step (given 0x00021002 ⟨0xA0A0, 0xFF00, 0x0FF0, 0xA0A3, 0xA0A4, 0xA0A5, 0xA0A6, 0xA0A7⟩)) = some (0xF0F0, 0x0011) := by decide
theorem test_aluXor_b : regPc .x5 (step (given 0x00066502 ⟨0xA0A0, 0xA0A1, 0xA0A2, 0xA0A3, 0xA0A4, 0xA0A5, 0xBEEF, 0xA0A7⟩)) = some (0x0000, 0x0011) := by decide
theorem test_aluNot_a : regPc .x1 (step (given 0x00002103 ⟨0xA0A0, 0x1111, 0x0000, 0xA0A3, 0xA0A4, 0xA0A5, 0xA0A6, 0xA0A7⟩)) = some (0xFFFF, 0x0011) := by decide
theorem test_aluNot_b : regPc .x0 (step (given 0x00000003 ⟨0x00FF, 0xA0A1, 0xA0A2, 0xA0A3, 0xA0A4, 0xA0A5, 0xA0A6, 0xA0A7⟩)) = some (0xFF00, 0x0011) := by decide
theorem test_aluAdd_a : regPc .x0 (step (given 0x00021004 ⟨0xA0A0, 0x7FFF, 0x0001, 0xA0A3, 0xA0A4, 0xA0A5, 0xA0A6, 0xA0A7⟩)) = some (0x8000, 0x0011) := by decide
theorem test_aluAdd_b : regPc .x0 (step (given 0x00021004 ⟨0xA0A0, 0xFFFF, 0x0001, 0xA0A3, 0xA0A4, 0xA0A5, 0xA0A6, 0xA0A7⟩)) = some (0x0000, 0x0011) := by decide
theorem test_aluSub_a : regPc .x0 (step (given 0x00021005 ⟨0xA0A0, 0x0000, 0x0001, 0xA0A3, 0xA0A4, 0xA0A5, 0xA0A6, 0xA0A7⟩)) = some (0xFFFF, 0x0011) := by decide
theorem test_aluSub_b : regPc .x0 (step (given 0x00021005 ⟨0xA0A0, 0x000A, 0x0003, 0xA0A3, 0xA0A4, 0xA0A5, 0xA0A6, 0xA0A7⟩)) = some (0x0007, 0x0011) := by decide
theorem test_aluLsl_a : regPc .x0 (step (given 0x00021006 ⟨0xA0A0, 0xFFFF, 0x0010, 0xA0A3, 0xA0A4, 0xA0A5, 0xA0A6, 0xA0A7⟩)) = some (0x0000, 0x0011) := by decide
theorem test_aluLsl_b : regPc .x0 (step (given 0x00021006 ⟨0xA0A0, 0xFFFF, 0xFFFF, 0xA0A3, 0xA0A4, 0xA0A5, 0xA0A6, 0xA0A7⟩)) = some (0x0000, 0x0011) := by decide
theorem test_aluLsr_a : regPc .x0 (step (given 0x00021007 ⟨0xA0A0, 0x8000, 0x0010, 0xA0A3, 0xA0A4, 0xA0A5, 0xA0A6, 0xA0A7⟩)) = some (0x0000, 0x0011) := by decide
theorem test_aluLsr_b : regPc .x0 (step (given 0x00021007 ⟨0xA0A0, 0xFFFF, 0x0011, 0xA0A3, 0xA0A4, 0xA0A5, 0xA0A6, 0xA0A7⟩)) = some (0x0000, 0x0011) := by decide
theorem test_aluBcdl_a : regPc .x0 (step (given 0x00001008 ⟨0xA0A0, 0x8000, 0xA0A2, 0xA0A3, 0xA0A4, 0xA0A5, 0xA0A6, 0xA0A7⟩)) = some (0x2768, 0x0011) := by decide
theorem test_aluBcdl_b : regPc .x0 (step (given 0x00001008 ⟨0xA0A0, 0x04D2, 0xA0A2, 0xA0A3, 0xA0A4, 0xA0A5, 0xA0A6, 0xA0A7⟩)) = some (0x1234, 0x0011) := by decide
theorem test_aluBcdh_a : regPc .x0 (step (given 0x00001009 ⟨0xA0A0, 0xD431, 0xA0A2, 0xA0A3, 0xA0A4, 0xA0A5, 0xA0A6, 0xA0A7⟩)) = some (0x0005, 0x0011) := by decide
theorem test_aluBcdh_b : regPc .x0 (step (given 0x00001009 ⟨0xA0A0, 0x270F, 0xA0A2, 0xA0A3, 0xA0A4, 0xA0A5, 0xA0A6, 0xA0A7⟩)) = some (0x0000, 0x0011) := by decide
theorem test_aluUmulL_a : regPc .x0 (step (given 0x0002100A ⟨0xA0A0, 0x1234, 0x0010, 0xA0A3, 0xA0A4, 0xA0A5, 0xA0A6, 0xA0A7⟩)) = some (0x2340, 0x0011) := by decide
theorem test_aluUmulL_b : regPc .x0 (step (given 0x0002100A ⟨0xA0A0, 0xFFFF, 0xFFFF, 0xA0A3, 0xA0A4, 0xA0A5, 0xA0A6, 0xA0A7⟩)) = some (0x0001, 0x0011) := by decide
theorem test_aluUmulH_a : regPc .x0 (step (given 0x0002100B ⟨0xA0A0, 0x1234, 0x0010, 0xA0A3, 0xA0A4, 0xA0A5, 0xA0A6, 0xA0A7⟩)) = some (0x0001, 0x0011) := by decide
theorem test_aluUmulH_b : regPc .x0 (step (given 0x0002100B ⟨0xA0A0, 0xFFFF, 0xFFFF, 0xA0A3, 0xA0A4, 0xA0A5, 0xA0A6, 0xA0A7⟩)) = some (0xFFFE, 0x0011) := by decide
theorem test_aluMulL_a : regPc .x0 (step (given 0x0002100C ⟨0xA0A0, 0xFFFF, 0xFFFF, 0xA0A3, 0xA0A4, 0xA0A5, 0xA0A6, 0xA0A7⟩)) = some (0x0001, 0x0011) := by decide
theorem test_aluMulL_b : regPc .x0 (step (given 0x0002100C ⟨0xA0A0, 0x0003, 0xFFFE, 0xA0A3, 0xA0A4, 0xA0A5, 0xA0A6, 0xA0A7⟩)) = some (0xFFFA, 0x0011) := by decide
theorem test_aluMulH_a : regPc .x0 (step (given 0x0002100D ⟨0xA0A0, 0x8000, 0x7FFF, 0xA0A3, 0xA0A4, 0xA0A5, 0xA0A6, 0xA0A7⟩)) = some (0xC000, 0x0011) := by decide
theorem test_aluMulH_b : regPc .x0 (step (given 0x0002100D ⟨0xA0A0, 0xFFFF, 0xFFFF, 0xA0A3, 0xA0A4, 0xA0A5, 0xA0A6, 0xA0A7⟩)) = some (0x0000, 0x0011) := by decide
theorem test_aluNul0E_a : faultOf (step (given 0x0000000E ⟨0xA0A0, 0xA0A1, 0xA0A2, 0xA0A3, 0xA0A4, 0xA0A5, 0xA0A6, 0xA0A7⟩)) = some (.illegalInstruction 0x0010 0x0000000E) := by decide
theorem test_aluNul0F_a : faultOf (step (given 0x0000000F ⟨0xA0A0, 0xA0A1, 0xA0A2, 0xA0A3, 0xA0A4, 0xA0A5, 0xA0A6, 0xA0A7⟩)) = some (.illegalInstruction 0x0010 0x0000000F) := by decide
theorem test_aluAndI_a : regPc .x0 (step (given 0x00FF1010 ⟨0xA0A0, 0x1234, 0xA0A2, 0xA0A3, 0xA0A4, 0xA0A5, 0xA0A6, 0xA0A7⟩)) = some (0x0034, 0x0011) := by decide
theorem test_aluAndI_b : regPc .x0 (step (given 0x00001010 ⟨0xA0A0, 0x1234, 0xA0A2, 0xA0A3, 0xA0A4, 0xA0A5, 0xA0A6, 0xA0A7⟩)) = some (0x0000, 0x0011) := by decide
theorem test_aluOrI_a : regPc .x0 (step (given 0x00101011 ⟨0xA0A0, 0x0003, 0xA0A2, 0xA0A3, 0xA0A4, 0xA0A5, 0xA0A6, 0xA0A7⟩)) = some (0x0013, 0x0011) := by decide
theorem test_aluXorI_a : regPc .x0 (step (given 0xFFFF1012 ⟨0xA0A0, 0x00FF, 0xA0A2, 0xA0A3, 0xA0A4, 0xA0A5, 0xA0A6, 0xA0A7⟩)) = some (0xFF00, 0x0011) := by decide
theorem test_aluNotI_a : regPc .x0 (step (given 0xABCD0013 ⟨0x00FF, 0xA0A1, 0xA0A2, 0xA0A3, 0xA0A4, 0xA0A5, 0xA0A6, 0xA0A7⟩)) = some (0xFF00, 0x0011) := by decide
theorem test_aluNotI_b : regPc .x0 (step (given 0x00000013 ⟨0x00FF, 0xA0A1, 0xA0A2, 0xA0A3, 0xA0A4, 0xA0A5, 0xA0A6, 0xA0A7⟩)) = some (0xFF00, 0x0011) := by decide
theorem test_aluAddI_a : regPc .x0 (step (given 0x00051014 ⟨0xA0A0, 0x0007, 0xA0A2, 0xA0A3, 0xA0A4, 0xA0A5, 0xA0A6, 0xA0A7⟩)) = some (0x000C, 0x0011) := by decide
theorem test_aluAddI_b : regPc .x0 (step (given 0x00011014 ⟨0xA0A0, 0xFFFF, 0xA0A2, 0xA0A3, 0xA0A4, 0xA0A5, 0xA0A6, 0xA0A7⟩)) = some (0x0000, 0x0011) := by decide
theorem test_aluSubI_a : regPc .x0 (step (given 0x000A1015 ⟨0xA0A0, 0x0064, 0xA0A2, 0xA0A3, 0xA0A4, 0xA0A5, 0xA0A6, 0xA0A7⟩)) = some (0x005A, 0x0011) := by decide
theorem test_aluSubI_b : regPc .x0 (step (given 0x00011015 ⟨0xA0A0, 0x0000, 0xA0A2, 0xA0A3, 0xA0A4, 0xA0A5, 0xA0A6, 0xA0A7⟩)) = some (0xFFFF, 0x0011) := by decide
theorem test_aluLslI_a : regPc .x0 (step (given 0x00031016 ⟨0xA0A0, 0x0005, 0xA0A2, 0xA0A3, 0xA0A4, 0xA0A5, 0xA0A6, 0xA0A7⟩)) = some (0x0028, 0x0011) := by decide
theorem test_aluLslI_b : regPc .x0 (step (given 0x00101016 ⟨0xA0A0, 0xFFFF, 0xA0A2, 0xA0A3, 0xA0A4, 0xA0A5, 0xA0A6, 0xA0A7⟩)) = some (0x0000, 0x0011) := by decide
theorem test_aluLsrI_a : regPc .x0 (step (given 0x00021017 ⟨0xA0A0, 0x0029, 0xA0A2, 0xA0A3, 0xA0A4, 0xA0A5, 0xA0A6, 0xA0A7⟩)) = some (0x000A, 0x0011) := by decide
theorem test_aluLsrI_b : regPc .x0 (step (given 0x00011017 ⟨0xA0A0, 0x8000, 0xA0A2, 0xA0A3, 0xA0A4, 0xA0A5, 0xA0A6, 0xA0A7⟩)) = some (0x4000, 0x0011) := by decide
theorem test_aluBcdlI_a : regPc .x0 (step (given 0x00001018 ⟨0xA0A0, 0xFFFF, 0xA0A2, 0xA0A3, 0xA0A4, 0xA0A5, 0xA0A6, 0xA0A7⟩)) = some (0x5535, 0x0011) := by decide
theorem test_aluBcdhI_a : regPc .x0 (step (given 0x00001019 ⟨0xA0A0, 0xFFFF, 0xA0A2, 0xA0A3, 0xA0A4, 0xA0A5, 0xA0A6, 0xA0A7⟩)) = some (0x0006, 0x0011) := by decide
theorem test_aluUmulLI_a : regPc .x0 (step (given 0x0003101A ⟨0xA0A0, 0x5555, 0xA0A2, 0xA0A3, 0xA0A4, 0xA0A5, 0xA0A6, 0xA0A7⟩)) = some (0xFFFF, 0x0011) := by decide
theorem test_aluUmulHI_a : regPc .x0 (step (given 0xFFFE101B ⟨0xA0A0, 0x8000, 0xA0A2, 0xA0A3, 0xA0A4, 0xA0A5, 0xA0A6, 0xA0A7⟩)) = some (0x7FFF, 0x0011) := by decide
theorem test_aluUmulHI_b : regPc .x0 (step (given 0x0003101B ⟨0xA0A0, 0xFFFF, 0xA0A2, 0xA0A3, 0xA0A4, 0xA0A5, 0xA0A6, 0xA0A7⟩)) = some (0x0002, 0x0011) := by decide
theorem test_aluMulLI_a : regPc .x0 (step (given 0xFFFE101C ⟨0xA0A0, 0x0007, 0xA0A2, 0xA0A3, 0xA0A4, 0xA0A5, 0xA0A6, 0xA0A7⟩)) = some (0xFFF2, 0x0011) := by decide
theorem test_aluMulHI_a : regPc .x0 (step (given 0xFFFE101D ⟨0xA0A0, 0x8000, 0xA0A2, 0xA0A3, 0xA0A4, 0xA0A5, 0xA0A6, 0xA0A7⟩)) = some (0x0001, 0x0011) := by decide
theorem test_aluMulHI_b : regPc .x0 (step (given 0xFFFE101D ⟨0xA0A0, 0x0007, 0xA0A2, 0xA0A3, 0xA0A4, 0xA0A5, 0xA0A6, 0xA0A7⟩)) = some (0xFFFF, 0x0011) := by decide
theorem test_aluNul0EI_a : faultOf (step (given 0x0000001E ⟨0xA0A0, 0xA0A1, 0xA0A2, 0xA0A3, 0xA0A4, 0xA0A5, 0xA0A6, 0xA0A7⟩)) = some (.illegalInstruction 0x0010 0x0000001E) := by decide
theorem test_aluNul0FI_a : faultOf (step (given 0x0000001F ⟨0xA0A0, 0xA0A1, 0xA0A2, 0xA0A3, 0xA0A4, 0xA0A5, 0xA0A6, 0xA0A7⟩)) = some (.illegalInstruction 0x0010 0x0000001F) := by decide
theorem test_move_a : regPc .x0 (step (given 0x00017040 ⟨0xA0A0, 0xBEEF, 0xA0A2, 0xA0A3, 0xA0A4, 0xA0A5, 0xA0A6, 0x1111⟩)) = some (0xBEEF, 0x0011) := by decide
theorem test_move_b : regPc .x0 (step (given 0x00010040 ⟨0xA0A0, 0xBEEF, 0xA0A2, 0xA0A3, 0xA0A4, 0xA0A5, 0xA0A6, 0xA0A7⟩)) = some (0xBEEF, 0x0011) := by decide
theorem test_moveI_a : regPc .x2 (step (given 0xFFFF0241 ⟨0xA0A0, 0xA0A1, 0xA0A2, 0xA0A3, 0xA0A4, 0xA0A5, 0xA0A6, 0xA0A7⟩ (pc := 0xFFFF))) = some (0xFFFF, 0x0000) := by decide
theorem test_moveI_b : regPc .x0 (step (given 0x00640041 ⟨0xA0A0, 0xA0A1, 0xA0A2, 0xA0A3, 0xA0A4, 0xA0A5, 0xA0A6, 0xA0A7⟩)) = some (0x0064, 0x0011) := by decide
theorem test_cmp_a : flagsPc (step (given 0x00010042 ⟨0x8000, 0x0001, 0xA0A2, 0xA0A3, 0xA0A4, 0xA0A5, 0xA0A6, 0xA0A7⟩)) = some (⟨false, false, true, true⟩, 0x0011) := by decide
theorem test_cmp_b : flagsPc (step (given 0x00010042 ⟨0x0005, 0x0007, 0xA0A2, 0xA0A3, 0xA0A4, 0xA0A5, 0xA0A6, 0xA0A7⟩)) = some (⟨false, true, false, false⟩, 0x0011) := by decide
theorem test_cmpI_a : flagsPc (step (given 0x002A0043 ⟨0x002A, 0xA0A1, 0xA0A2, 0xA0A3, 0xA0A4, 0xA0A5, 0xA0A6, 0xA0A7⟩)) = some (⟨true, false, true, false⟩, 0x0011) := by decide
theorem test_cmpI_b : flagsPc (step (given 0x00000043 ⟨0x8001, 0xA0A1, 0xA0A2, 0xA0A3, 0xA0A4, 0xA0A5, 0xA0A6, 0xA0A7⟩)) = some (⟨false, true, true, false⟩, 0x0011) := by decide
theorem test_read_a : faultOf (step (given 0x00010046 ⟨0xA0A0, 0x0100, 0xA0A2, 0xA0A3, 0xA0A4, 0xA0A5, 0xA0A6, 0xA0A7⟩)) = some (.addressOutOfRange 0x0010 0x00010046 0x0100) := by decide
theorem test_read_b : regPc .x1 (step (given 0x00010146 ⟨0xA0A0, 0x00FF, 0xA0A2, 0xA0A3, 0xA0A4, 0xA0A5, 0xA0A6, 0xA0A7⟩ (mem := [(255, 0x0007)]))) = some (0x0007, 0x0011) := by decide
theorem test_readI_a : faultOf (step (given 0xFFFF0047 ⟨0xA0A0, 0xA0A1, 0xA0A2, 0xA0A3, 0xA0A4, 0xA0A5, 0xA0A6, 0xA0A7⟩)) = some (.addressOutOfRange 0x0010 0xFFFF0047 0xFFFF) := by decide
theorem test_readI_b : regPc .x0 (step (given 0x00320047 ⟨0xA0A0, 0xA0A1, 0xA0A2, 0xA0A3, 0xA0A4, 0xA0A5, 0xA0A6, 0xA0A7⟩ (mem := [(50, 0xCAFE)]))) = some (0xCAFE, 0x0011) := by decide
theorem test_write_a : faultOf (step (given 0x00010048 ⟨0x0001, 0x0100, 0xA0A2, 0xA0A3, 0xA0A4, 0xA0A5, 0xA0A6, 0xA0A7⟩)) = some (.addressOutOfRange 0x0010 0x00010048 0x0100) := by decide
theorem test_write_b : outPc (step (given 0x00010048 ⟨0x1234, 0x0032, 0xA0A2, 0xA0A3, 0xA0A4, 0xA0A5, 0xA0A6, 0xA0A7⟩)) = some ([(50, 0x1234)], [], 0x0011) := by decide
theorem test_writeI_a : faultOf (step (given 0x01000049 ⟨0x0001, 0xA0A1, 0xA0A2, 0xA0A3, 0xA0A4, 0xA0A5, 0xA0A6, 0xA0A7⟩)) = some (.addressOutOfRange 0x0010 0x01000049 0x0100) := by decide
theorem test_writeI_b : outPc (step (given 0x00320049 ⟨0x1234, 0xA0A1, 0xA0A2, 0xA0A3, 0xA0A4, 0xA0A5, 0xA0A6, 0xA0A7⟩)) = some ([(50, 0x1234)], [], 0x0011) := by decide
theorem test_printReg_a : outPc (step (given 0x0002204A ⟨0xA0A0, 0xA0A1, 0xFFFF, 0xA0A3, 0xA0A4, 0xA0A5, 0xA0A6, 0xA0A7⟩)) = some ([], [(65535, ⟨.value, 0xFFFF⟩)], 0x0011) := by decide
theorem test_printReg_b : outPc (step (given 0x0000104A ⟨0x0003, 0x002A, 0xA0A2, 0xA0A3, 0xA0A4, 0xA0A5, 0xA0A6, 0xA0A7⟩)) = some ([], [(3, ⟨.value, 0x002A⟩)], 0x0011) := by decide
theorem test_printRegI_a : outPc (step (given 0x1234304B ⟨0xA0A0, 0xA0A1, 0xA0A2, 0x0000, 0xA0A4, 0xA0A5, 0xA0A6, 0xA0A7⟩)) = some ([], [(4660, ⟨.value, 0x0000⟩)], 0x0011) := by decide
theorem test_printRegI_b : outPc (step (given 0x000A004B ⟨0x0007, 0xA0A1, 0xA0A2, 0xA0A3, 0xA0A4, 0xA0A5, 0xA0A6, 0xA0A7⟩)) = some ([], [(10, ⟨.value, 0x0007⟩)], 0x0011) := by decide
theorem test_printCns_a : outPc (step (given 0x4100004C ⟨0x0003, 0xA0A1, 0xA0A2, 0xA0A3, 0xA0A4, 0xA0A5, 0xA0A6, 0xA0A7⟩)) = some ([], [(3, ⟨.char, 0x0041⟩)], 0x0011) := by decide
theorem test_printCns_b : outPc (step (given 0x41F0004C ⟨0x0009, 0xA0A1, 0xA0A2, 0xA0A3, 0xA0A4, 0xA0A5, 0xA0A6, 0xA0A7⟩)) = some ([], [(9, ⟨.char, 0x0041⟩)], 0x0011) := by decide
theorem test_printCnsI_a : outPc (step (given 0x7AFF004D ⟨0xA0A0, 0xA0A1, 0xA0A2, 0xA0A3, 0xA0A4, 0xA0A5, 0xA0A6, 0xA0A7⟩)) = some ([], [(255, ⟨.char, 0x007A⟩)], 0x0011) := by decide
theorem test_printCnsI_b : outPc (step (given 0x4805004D ⟨0xA0A0, 0xA0A1, 0xA0A2, 0xA0A3, 0xA0A4, 0xA0A5, 0xA0A6, 0xA0A7⟩)) = some ([], [(5, ⟨.char, 0x0048⟩)], 0x0011) := by decide

/-! ## CmpFlags on corner operands, and the conditions: the tables of 95_test_vectors.md sections 2.4 and 2.5 -/

theorem test_cmpFlags_0 : cmpFlags 0x7FFF 0x8000 = ⟨false, true, false, true⟩ := by decide
theorem test_cmpFlags_1 : cmpFlags 0x8000 0x7FFF = ⟨false, false, true, true⟩ := by decide
theorem test_cmpFlags_2 : cmpFlags 0x0000 0x8000 = ⟨false, true, false, true⟩ := by decide
theorem test_cmpFlags_3 : cmpFlags 0x7FFF 0xFFFF = ⟨false, true, false, true⟩ := by decide

/-- The sixteen flag combinations (Z, N, C, V) in the order of the table. -/
def combinations : List Flags :=
  [false, true].flatMap (fun z => [false, true].flatMap (fun n => [false, true].flatMap (fun c => [false, true].map (fun v => ⟨z, n, c, v⟩))))

/-- A column of the table, one digit a row. -/
def column (c : Cond) : List Nat := combinations.map (fun f => if condHolds c f = some true then 1 else 0)

theorem test_column_b : column .b = [1, 1, 1, 1, 1, 1, 1, 1, 1, 1, 1, 1, 1, 1, 1, 1] := by decide
theorem test_column_beq : column .beq = [0, 0, 0, 0, 0, 0, 0, 0, 1, 1, 1, 1, 1, 1, 1, 1] := by decide
theorem test_column_bne : column .bne = [1, 1, 1, 1, 1, 1, 1, 1, 0, 0, 0, 0, 0, 0, 0, 0] := by decide
theorem test_column_blt : column .blt = [0, 0, 0, 0, 1, 1, 1, 1, 0, 0, 0, 0, 1, 1, 1, 1] := by decide
theorem test_column_ble : column .ble = [0, 0, 0, 0, 1, 1, 1, 1, 1, 1, 1, 1, 1, 1, 1, 1] := by decide
theorem test_column_bgt : column .bgt = [1, 1, 1, 1, 0, 0, 0, 0, 0, 0, 0, 0, 0, 0, 0, 0] := by decide
theorem test_column_bge : column .bge = [1, 1, 1, 1, 0, 0, 0, 0, 1, 1, 1, 1, 0, 0, 0, 0] := by decide
theorem test_column_bcs : column .bcs = [0, 0, 1, 1, 0, 0, 1, 1, 0, 0, 1, 1, 0, 0, 1, 1] := by decide
theorem test_column_bcc : column .bcc = [1, 1, 0, 0, 1, 1, 0, 0, 1, 1, 0, 0, 1, 1, 0, 0] := by decide
theorem test_column_bmi : column .bmi = [0, 0, 0, 0, 1, 1, 1, 1, 0, 0, 0, 0, 1, 1, 1, 1] := by decide
theorem test_column_bpl : column .bpl = [1, 1, 1, 1, 0, 0, 0, 0, 1, 1, 1, 1, 0, 0, 0, 0] := by decide
theorem test_column_bvs : column .bvs = [0, 1, 0, 1, 0, 1, 0, 1, 0, 1, 0, 1, 0, 1, 0, 1] := by decide
theorem test_column_bvc : column .bvc = [1, 0, 1, 0, 1, 0, 1, 0, 1, 0, 1, 0, 1, 0, 1, 0] := by decide
theorem test_column_bhi : column .bhi = [0, 0, 1, 1, 0, 0, 1, 1, 0, 0, 0, 0, 0, 0, 0, 0] := by decide
theorem test_column_bls : column .bls = [1, 1, 0, 0, 1, 1, 0, 0, 1, 1, 1, 1, 1, 1, 1, 1] := by decide

/-! ## One step of each branch row, taken or not as the table says (R150, R151); the two conditions 0xF fault (R148) -/

/-- A state for a branch: X5 holds 0x0123 and the flags are as given. -/
def branching (w : InstrWord) (f : Flags) : State := given w ⟨1, 2, 3, 4, 5, 0x0123, 6, 7⟩ f

theorem test_b : flagsPc (step (branching 0x00050044 ⟨true, false, true, false⟩)) = some (⟨true, false, true, false⟩, 0x0123) := by decide
theorem test_bImm : flagsPc (step (branching 0xBEEF0045 ⟨true, false, true, false⟩)) = some (⟨true, false, true, false⟩, 0xBEEF) := by decide
theorem test_beq : flagsPc (step (branching 0x00050144 ⟨true, false, true, false⟩)) = some (⟨true, false, true, false⟩, 0x0123) := by decide
theorem test_beqImm : flagsPc (step (branching 0xBEEF0145 ⟨false, false, false, false⟩)) = some (⟨false, false, false, false⟩, 0x0011) := by decide
theorem test_bne : flagsPc (step (branching 0x00050244 ⟨false, true, true, true⟩)) = some (⟨false, true, true, true⟩, 0x0123) := by decide
theorem test_bneImm : flagsPc (step (branching 0xBEEF0245 ⟨true, false, true, false⟩)) = some (⟨true, false, true, false⟩, 0x0011) := by decide
theorem test_blt : flagsPc (step (branching 0x00050344 ⟨false, true, true, true⟩)) = some (⟨false, true, true, true⟩, 0x0123) := by decide
theorem test_bltImm : flagsPc (step (branching 0xBEEF0345 ⟨false, false, false, false⟩)) = some (⟨false, false, false, false⟩, 0x0011) := by decide
theorem test_ble : flagsPc (step (branching 0x00050444 ⟨true, false, true, false⟩)) = some (⟨true, false, true, false⟩, 0x0123) := by decide
theorem test_bleImm : flagsPc (step (branching 0xBEEF0445 ⟨false, false, false, false⟩)) = some (⟨false, false, false, false⟩, 0x0011) := by decide
theorem test_bgt : flagsPc (step (branching 0x00050544 ⟨false, false, true, true⟩)) = some (⟨false, false, true, true⟩, 0x0123) := by decide
theorem test_bgtImm : flagsPc (step (branching 0xBEEF0545 ⟨false, true, false, false⟩)) = some (⟨false, true, false, false⟩, 0x0011) := by decide
theorem test_bge : flagsPc (step (branching 0x00050644 ⟨true, false, true, false⟩)) = some (⟨true, false, true, false⟩, 0x0123) := by decide
theorem test_bgeImm : flagsPc (step (branching 0xBEEF0645 ⟨false, true, false, false⟩)) = some (⟨false, true, false, false⟩, 0x0011) := by decide
theorem test_bcs : flagsPc (step (branching 0x00050744 ⟨true, false, true, false⟩)) = some (⟨true, false, true, false⟩, 0x0123) := by decide
theorem test_bcsImm : flagsPc (step (branching 0xBEEF0745 ⟨false, false, false, false⟩)) = some (⟨false, false, false, false⟩, 0x0011) := by decide
theorem test_bcc : flagsPc (step (branching 0x00050844 ⟨false, true, false, true⟩)) = some (⟨false, true, false, true⟩, 0x0123) := by decide
theorem test_bccImm : flagsPc (step (branching 0xBEEF0845 ⟨false, false, true, false⟩)) = some (⟨false, false, true, false⟩, 0x0011) := by decide
theorem test_bmi : flagsPc (step (branching 0x00050944 ⟨false, true, true, true⟩)) = some (⟨false, true, true, true⟩, 0x0123) := by decide
theorem test_bmiImm : flagsPc (step (branching 0xBEEF0945 ⟨false, false, false, false⟩)) = some (⟨false, false, false, false⟩, 0x0011) := by decide
theorem test_bpl : flagsPc (step (branching 0x00050A44 ⟨true, false, true, false⟩)) = some (⟨true, false, true, false⟩, 0x0123) := by decide
theorem test_bplImm : flagsPc (step (branching 0xBEEF0A45 ⟨false, true, false, false⟩)) = some (⟨false, true, false, false⟩, 0x0011) := by decide
theorem test_bvs : flagsPc (step (branching 0x00050B44 ⟨false, true, true, true⟩)) = some (⟨false, true, true, true⟩, 0x0123) := by decide
theorem test_bvsImm : flagsPc (step (branching 0xBEEF0B45 ⟨false, false, false, false⟩)) = some (⟨false, false, false, false⟩, 0x0011) := by decide
theorem test_bvc : flagsPc (step (branching 0x00050C44 ⟨true, false, true, false⟩)) = some (⟨true, false, true, false⟩, 0x0123) := by decide
theorem test_bvcImm : flagsPc (step (branching 0xBEEF0C45 ⟨false, false, false, true⟩)) = some (⟨false, false, false, true⟩, 0x0011) := by decide
theorem test_bhi : flagsPc (step (branching 0x00050D44 ⟨false, true, true, true⟩)) = some (⟨false, true, true, true⟩, 0x0123) := by decide
theorem test_bhiImm : flagsPc (step (branching 0xBEEF0D45 ⟨false, false, false, false⟩)) = some (⟨false, false, false, false⟩, 0x0011) := by decide
theorem test_bls : flagsPc (step (branching 0x00050E44 ⟨true, false, true, false⟩)) = some (⟨true, false, true, false⟩, 0x0123) := by decide
theorem test_blsImm : flagsPc (step (branching 0xBEEF0E45 ⟨false, false, true, false⟩)) = some (⟨false, false, true, false⟩, 0x0011) := by decide
theorem test_branch : faultOf (step (branching 0x00000F44 ⟨false, true, false, false⟩)) = some (.reservedCondition 0x0010 0x00000F44) := by decide
theorem test_branchI : faultOf (step (branching 0x00640F45 ⟨false, true, false, false⟩)) = some (.reservedCondition 0x0010 0x00640F45) := by decide

/-! ## Other operations: worked by hand from the rules named -/

theorem test_wrap8_256 : memIndex .wrap8 0x0100 = some 0 := by decide
theorem test_lsl_mod16 : lslWord .mod16 0xFFFF 0xFFFF = 0x8000 := by decide
theorem test_lsr_mod16 : lsrWord .mod16 0xFFFF 0x0011 = 0x7FFF := by decide

/-- R37, R10: writing twice lists the address once; writing the filler to IMEM takes the address off the list. -/
theorem test_memory_write_order : Memory.write (Memory.write (Memory.write [] 9 1) 3 2) 9 4 = [(3, 2), (9, 4)] := by decide
theorem test_imem_write_filler : InstrMemory.write [(3, 0), (5, 7)] 3 0xFFFFFFFF = [(5, 7)] := by decide

/-- R184: the filler is not listed. -/
theorem test_imemFrom : imemFrom 0 [0x00010041, 0xFFFFFFFF, 0x00020045] = [(0, 0x00010041), (2, 0x00020045)] := by decide

/-- R186: `B 8` at address 8 ends a run, and at address 9 does not. -/
theorem test_finished : finished (given 0x00080045 ⟨0, 0, 0, 0, 0, 0, 0, 0⟩ (pc := 8)) = true := by decide
theorem test_not_finished : finished (given 0x00080045 ⟨0, 0, 0, 0, 0, 0, 0, 0⟩ (pc := 9)) = false := by decide

/-- R77: the same two operands in another order are another form. -/
theorem test_assemble_print_reg : assemble .print [.reg .x1, .reg .x0] = some (.printReg .x1 .x0) := by decide
theorem test_assemble_print_at : assemble .print [.num 10, .reg .x0] = some (.printRegI .x0 10) := by decide
theorem test_assemble_print_pos_256 : assemble .print [.num 256, .chr 0x48] = none := by decide

/-- R79: a negative immediate is its two's-complement pattern; out of range is an error; `NOT Xn` names one register. -/
theorem test_assemble_negative : assemble .mulL [.reg .x0, .reg .x1, .num (-2)] = some (.aluMulLI .x0 .x1 0xFFFE) := by decide
theorem test_assemble_65536 : assemble .mov [.reg .x0, .num 65536] = none := by decide
theorem test_assemble_not : assemble .not [.reg .x3] = some (.aluNot .x3 .x3) := by decide

/-- R83: READ_I has IMMEDIATE set, TYPE 5, VALID. -/
theorem test_rom_readI : romLowBits .readI = some 0x2B := by decide

/-! ## Witnesses: the hypotheses of the obligations can be met, together, at the boundaries of each clause -/

/-- A state with nothing special about it: MEM lists the first and the last address, SCN one cell. -/
def sample (w : InstrWord) (pc : Word := 0x0010) (f : Flags := ⟨false, true, false, true⟩) : State :=
  { regs := ⟨0xFFFF, 0x00FF, 0x0100, 0x8000, 0x0001, 0x0123, 0xA5A5, 0x0000⟩, pc := pc, flags := f, mem := [(0, 5), (255, 7)],
    scn := [(3, ⟨.char, 0x41⟩)], scnLog := [], imem := [(pc.toNat, w)] }

theorem witness_DecodeInvertsEncode :
    (Instr.aluAdd .x7 .x0 .x7).wellFormed = true ∧ (Instr.branch .reservedF .x7).wellFormed = true ∧
      (Instr.printCnsI 0xFF 0xFF).wellFormed = true := by decide

/-- Also with ignored bits set. -/
theorem witness_DecodedWordIsItsEncoding :
    decode 0xFFF21004 = .ok (.aluAdd .x0 .x1 .x2) ∧ ((0x04 : Byte), (0x000FFFFF : InstrWord)) ∈ significantBits ∧
      opcodeByte 0xFFF21004 = 0x04 := by decide

theorem witness_UnusedBitsAreIgnored :
    ((0x1F : Byte), (0x000000FF : InstrWord)) ∈ significantBits ∧ opcodeByte 0xFFFFFF1F = 0x1F ∧
      (Instr.aluNul0FI).opcode.byte = 0x1F ∧ (0xFFFFFF1F : InstrWord) &&& 0x000000FF ≠ 0xFFFFFF1F := by decide

theorem witness_BranchRowsShareOneMeaning : Cond.b ≠ .reservedF ∧ Cond.bls ≠ .reservedF := by decide

theorem witness_StepRunsDecodedInstruction :
    (Instr.write .x0 .x1).wellFormed = true ∧
      decode ((sample 0x00010048).imem.read (sample 0x00010048).pc.toNat) = .ok (.write .x0 .x1) := by decide

theorem witness_FetchWordIsTheNextInstruction : 0x0011 ≠ (sample 0).pc.toNat := by decide

/-- Both outcomes are reached. -/
theorem witness_StepEndsInNextOrFault :
    (∃ t, step (sample 0x00010048) = .next t) ∧
      step (sample 0x00020048) = .fault (.addressOutOfRange 0x0010 0x00020048 0x0100) := ⟨⟨_, rfl⟩, rfl⟩

/-- Both sides hold together, at the edges of each range of opcodes. -/
theorem witness_IllegalInstructionExactly :
    step (sample 0x00000020) = .fault (.illegalInstruction 0x0010 0x00000020) ∧
      step (sample 0x0000003F) = .fault (.illegalInstruction 0x0010 0x0000003F) ∧
      step (sample 0x0000004E) = .fault (.illegalInstruction 0x0010 0x0000004E) ∧
      step (sample 0xFFFFFFFF) = .fault (.illegalInstruction 0x0010 0xFFFFFFFF) ∧
      step (sample 0x0000080E) = .fault (.illegalInstruction 0x0010 0x0000080E) ∧
      step (sample 0xFFFFFF1F) = .fault (.illegalInstruction 0x0010 0xFFFFFF1F) ∧
      opcodeByte 0x00000020 = 0x20 ∧ opcodeByte 0x0000003F = 0x3F ∧ opcodeByte 0x0000004E = 0x4E := by
  refine ⟨rfl, rfl, rfl, rfl, rfl, rfl, ?_⟩; decide

/-- The pad bits of each format, W[19] in R and J only. -/
theorem witness_ReservedEncodingExactly :
    step (sample 0x00080000) = .fault (.reservedEncoding 0x0010 0x00080000) ∧
      step (sample 0x0000084D) = .fault (.reservedEncoding 0x0010 0x0000084D) ∧
      step (sample 0x00001044) = .fault (.reservedEncoding 0x0010 0x00001044) ∧
      step (sample 0x0000FF45) = .fault (.reservedEncoding 0x0010 0x0000FF45) ∧
      Defined 0x00 ∧ Defined 0x4D ∧ (0x00080000 : InstrWord) &&& zeroMask 0x00 ≠ 0 ∧ (0x00080010 : InstrWord) &&& zeroMask 0x10 = 0 := by
  refine ⟨rfl, rfl, rfl, rfl, ?_⟩; unfold Defined; decide

theorem witness_ReservedConditionExactly :
    step (sample 0xFFF70F44) = .fault (.reservedCondition 0x0010 0xFFF70F44) ∧
      step (sample 0x00640F45) = .fault (.reservedCondition 0x0010 0x00640F45) ∧
      (0xFFF70F44 : InstrWord) &&& zeroMask 0x44 = 0 ∧ (0xFFF70F44 : InstrWord).extractLsb' 8 4 = 0xF := by
  refine ⟨rfl, rfl, ?_⟩; decide

/-- 256 is the first address out of range, 65535 the last; at 255 the step goes on. -/
theorem witness_AddressOutOfRangeExactly :
    step (sample 0x00020046) = .fault (.addressOutOfRange 0x0010 0x00020046 0x0100) ∧
      step (sample 0xFFFF0049) = .fault (.addressOutOfRange 0x0010 0xFFFF0049 0xFFFF) ∧
      effectiveAddress (sample 0x00020046) = 0x0100 ∧ effectiveAddress (sample 0xFFFF0049) = 0xFFFF ∧
      ∃ t, step (sample 0x00FF0049) = .next t := ⟨rfl, rfl, by decide, by decide, _, rfl⟩

theorem witness_StepKeepsCanonicalForm :
    (sample 0x00320049).wf = true ∧ (∃ t, step (sample 0x00320049) = .next t) ∧
      (sample 0xFFFF004B).wf = true ∧ (∃ t, step (sample 0xFFFF004B) = .next t) := ⟨by decide, ⟨_, rfl⟩, by decide, _, rfl⟩

/-- Canonical spaces that list something. -/
theorem witness_EqualSpacesAreEqualData :
    Memory.wf [(0, 5), (255, 7)] = true ∧ Screen.wf [(65535, ⟨.value, 0⟩)] = true ∧
      InstrMemory.wf [(0, 0), (65535, 1)] = true ∧ Memory.wf [(256, 0)] = false ∧ InstrMemory.wf [(0, 0xFFFFFFFF)] = false := by
  decide

theorem witness_NoStepWritesImem : ∃ t, step (sample 0x00FF0049) = .next t := ⟨_, rfl⟩

/-- The clauses in turn: another opcode (at the last address), a branch not taken, a register branch and an immediate branch
taken. -/
theorem witness_PcAdvancesUnlessBranchTaken :
    ((∃ t, step (sample 0x00010041 0xFFFF) = .next t) ∧ opcodeByte (sample 0x00010041 0xFFFF).fetch = 0x41) ∧
    ((∃ t, step (sample 0x00640145) = .next t) ∧
      condHolds (Cond.ofCode ((sample 0x00640145).fetch.extractLsb' 8 4)) (sample 0x00640145).flags = some false) ∧
    ((∃ t, step (sample 0x00050344) = .next t) ∧ opcodeByte (sample 0x00050344).fetch = 0x44 ∧
      condHolds (Cond.ofCode ((sample 0x00050344).fetch.extractLsb' 8 4)) (sample 0x00050344).flags = some true) ∧
    ((∃ t, step (sample 0x00640345) = .next t) ∧ opcodeByte (sample 0x00640345).fetch = 0x45 ∧
      condHolds (Cond.ofCode ((sample 0x00640345).fetch.extractLsb' 8 4)) (sample 0x00640345).flags = some true) :=
  ⟨⟨⟨_, rfl⟩, by decide⟩, ⟨⟨_, rfl⟩, by decide⟩, ⟨⟨_, rfl⟩, by decide, by decide⟩, ⟨_, rfl⟩, by decide, by decide⟩

theorem witness_OnlyCompareWritesFlags :
    ((∃ t, step (sample 0x00021004) = .next t) ∧ opcodeByte (sample 0x00021004).fetch = 0x04) ∧
    ((∃ t, step (sample 0x00033042) = .next t) ∧ opcodeByte (sample 0x00033042).fetch = 0x42) ∧
    ((∃ t, step (sample 0x00010043) = .next t) ∧ opcodeByte (sample 0x00010043).fetch = 0x43) :=
  ⟨⟨⟨_, rfl⟩, by decide⟩, ⟨⟨_, rfl⟩, by decide⟩, ⟨_, rfl⟩, by decide⟩

theorem witness_OnlyBranchesReadFlags :
    (opcodeByte (sample 0x00021004).fetch = 0x04 ∧ ∃ t, step (sample 0x00021004) = .next t) ∧
    (opcodeByte (sample 0x00020048).fetch = 0x48 ∧ ∃ e, step (sample 0x00020048) = .fault e) :=
  ⟨⟨by decide, _, rfl⟩, by decide, _, rfl⟩

theorem witness_ScreenIsWriteOnly :
    (∃ t, step (sample 0x0003104A) = .next t) ∧ (∃ e, step (sample 0x00000F44) = .fault e) ∧
    ∃ t u, (Instr.printReg .x1 .x7).opcode ∈ [Opcode.printReg, .printRegI, .printCns, .printCnsI] ∧
      exec (.printReg .x1 .x7) (sample 0) = .next t ∧ exec (.printReg .x1 .x7) t = .next u :=
  ⟨⟨_, rfl⟩, ⟨_, rfl⟩, _, _, by decide, rfl, rfl⟩

theorem witness_OnlyDestinationRegisterChanges :
    ((∃ t, step (sample 0x00021704) = .next t) ∧ Reg.x0 ≠ Reg.ofNum ((sample 0x00021704).fetch.extractLsb' 8 3)) ∧
    ((∃ t, step (sample 0x00010742) = .next t) ∧ opcodeByte (sample 0x00010742).fetch = 0x42) :=
  ⟨⟨⟨_, rfl⟩, by decide⟩, ⟨_, rfl⟩, by decide⟩

theorem witness_OnlyWritesChangeMemory :
    ((∃ t, step (sample 0x00FF0049) = .next t) ∧ 254 ≠ (effectiveAddress (sample 0x00FF0049)).toNat) ∧
    ((∃ t, step (sample 0x00010046) = .next t) ∧ opcodeByte (sample 0x00010046).fetch = 0x46) :=
  ⟨⟨⟨_, rfl⟩, by decide⟩, ⟨_, rfl⟩, by decide⟩

theorem witness_PrintsWriteScreenOnce :
    ((∃ t, step (sample 0x0000104A) = .next t) ∧ opcodeByte (sample 0x0000104A).fetch = 0x4A) ∧
    ((∃ t, step (sample 0x7AFF004D) = .next t) ∧ opcodeByte (sample 0x7AFF004D).fetch = 0x4D) ∧
    ((∃ t, step (sample 0x00FF0049) = .next t) ∧ opcodeByte (sample 0x00FF0049).fetch = 0x49) :=
  ⟨⟨⟨_, rfl⟩, by decide⟩, ⟨⟨_, rfl⟩, by decide⟩, ⟨_, rfl⟩, by decide⟩

/-- A run of one print, from a list that is not empty. -/
theorem witness_ScreenWritesAreAFunctionOfTheRun :
    ∃ t, Steps { sample 0x4805004D with scnLog := [⟨9, .char, 0x41⟩] } t ∧
      screenWrites { sample 0x4805004D with scnLog := [⟨9, .char, 0x41⟩] } t = [⟨5, .char, 0x48⟩] :=
  ⟨_, .tail (.refl _) rfl, rfl⟩

/-- The four prints compute four positions and cells: X1 holds 255, X2 256, X5 0x0123. -/
theorem test_printedPosition :
    (printedPosition (sample 0x0001504A), printedCell (sample 0x0001504A)) = (0x00FF, ⟨.value, 0x0123⟩) ∧
      (printedPosition (sample 0xFFFF504B), printedCell (sample 0xFFFF504B)) = (0xFFFF, ⟨.value, 0x0123⟩) ∧
      (printedPosition (sample 0xFFF2004C), printedCell (sample 0xFFF2004C)) = (0x0100, ⟨.char, 0x00FF⟩) ∧
      (printedPosition (sample 0x4805004D), printedCell (sample 0x4805004D)) = (0x0005, ⟨.char, 0x0048⟩) := by decide

/-- At the first and the last address. -/
theorem witness_FinishedRunStaysFixed :
    (sample 0x00000045 0).imem.read (sample 0x00000045 0).pc.toNat = (0x45 : InstrWord) ||| (sample 0x00000045 0).pc.setWidth 32 <<< 16 ∧
    (sample 0xFFFF0045 0xFFFF).imem.read (sample 0xFFFF0045 0xFFFF).pc.toNat =
      (0x45 : InstrWord) ||| (sample 0xFFFF0045 0xFFFF).pc.setWidth 32 <<< 16 := by decide

theorem witness_LoaderPlacesTheImage :
    ((⟨Config.edition, [0x00010041, 0x00010045]⟩ : Image).edition = Config.edition ∧
      (⟨Config.edition, [0x00010041, 0x00010045]⟩ : Image).words.length ≤ 65536 ∧ State.reset.wf = true) ∧
    (⟨"another", []⟩ : Image).edition ≠ Config.edition := by decide

/-- The fields of the ALU formats: for every defined opcode a word with that opcode and a pad bit set. -/
theorem witness_FormatPads :
    ∀ o ∈ Opcode.all, o.reserved = false →
      opcodeByte (sample (o.byte.setWidth 32 ||| 0x00008000)).fetch = o.byte ∧
      (sample (o.byte.setWidth 32 ||| 0x00008000)).fetch &&& zeroMask o.byte ≠ 0 := by decide

/-- Every opcode has a row of significant bits and a word that sets every other bit. -/
theorem witness_IgnoresUnused :
    ∀ o ∈ Opcode.all, (o.byte, o.significant) ∈ significantBits ∧
      opcodeByte (o.byte.setWidth 32 ||| ~~~o.significant) = o.byte := by decide

/-- `r ≠ d` of every result statement. -/
theorem witness_OtherRegister : Reg.x0 ≠ .x7 := by decide

theorem witness_NotResults : (∃ t, exec (.aluNot .x0 .x3) (sample 0) = .next t) ∧ 0 < 16 ∧ 15 < 16 := ⟨⟨_, rfl⟩, by decide⟩

theorem witness_ShiftModesAgreeBelowSixteen : (0 : Word).toNat < 16 ∧ (15 : Word).toNat < 16 := by decide

theorem witness_ProductHalvesMakeTheProduct : (0x7FFF : Word).msb = false ∧ (0 : Word).msb = false := by decide

/-- Equal signs; no overflow with either order; overflow. -/
theorem witness_ConditionsAfterCompare :
    (cmpFlags 0x7FFF 0xFFFF).v = true ∧ (cmpFlags 0x7FFE 0xFFFF).v = false ∧ (cmpFlags 0x8000 0).v = false ∧
      (0x8000 : Word).msb = (0xFFFF : Word).msb ∧ Cond.bls ≠ .reservedF := by decide

/-- Each condition but B both holds of some flags and fails of some, so both clauses of every branch statement are met. -/
theorem witness_Branches :
    ∀ c ∈ [Cond.beq, .bne, .blt, .ble, .bgt, .bge, .bcs, .bcc, .bmi, .bpl, .bvs, .bvc, .bhi, .bls],
      (∃ f ∈ combinations, condHolds c (sample 0 (f := f)).flags = some true) ∧
        ∃ f ∈ combinations, condHolds c (sample 0 (f := f)).flags = some false := by decide

theorem witness_GenericBranchResults :
    Cond.reservedF = .reservedF ∧ Cond.b ≠ .reservedF ∧
      (opcodeByte (sample 0x00080044).fetch = 0x44 ∧ (sample 0x00080044).fetch &&& 0x0008F000 ≠ 0) ∧
      (opcodeByte (sample 0x00001045).fetch = 0x45 ∧ (sample 0x00001045).fetch &&& 0x0000F000 ≠ 0) := by decide

/-- X1 holds 255 and X2 holds 256: the two clauses of READ and WRITE meet there; so do the immediates. -/
theorem witness_LoadsAndStores :
    ((sample 0).reg .x1).toNat < 256 ∧ 256 ≤ ((sample 0).reg .x2).toNat ∧ (255 : Word).toNat < 256 ∧ 256 ≤ (256 : Word).toNat ∧
      254 ≠ ((sample 0).reg .x1).toNat := by decide

theorem witness_ReadAfterWrite :
    ((sample 0).reg .x1).toNat < 256 ∧ (0 : Word).toNat < 256 ∧ (0 : Word) ≠ (sample 0).reg .x1 := by decide

theorem witness_AddressModesAgreeInRange : (255 : Word).toNat < 256 ∧ 256 ≤ (256 : Word).toNat := by decide

theorem witness_Prints : 0 ≠ ((sample 0).reg .x0).toNat := by decide

/-- Each table of rows has members; both ends of each range, and one past them; operands of no row; and a statement that assembles. -/
theorem witness_AssembledStatementsDecode :
    threeOperandRows.length = 11 ∧ twoOperandRows.length = 4 ∧ branchRows.length = 15 ∧
      assemble .add [.reg .x0, .reg .x1, .num (-32768)] = some (.aluAddI .x0 .x1 0x8000) ∧
      assemble .write [.reg .x7, .num 65535] = some (.writeI .x7 0xFFFF) ∧
      assemble .mov [.reg .x0, .num (-32769)] = none ∧ assemble (.branch .b) [.num 65536] = none ∧
      assemble .print [.reg .x7, .chr 255] = some (.printCns .x7 0xFF) ∧ assemble .print [.reg .x7, .chr 256] = none ∧
      assemble .print [.num 0, .chr 255] = some (.printCnsI 0 0xFF) ∧ assemble .print [.num (-1), .chr 0] = none ∧
      [AsmOperand.chr 0x41].map kindOf ∉ operandKinds .mov ∧
      assemble (.branch .bhi) [.num (-1)] = some (.bhiImm 0xFFFF) := by
  refine ⟨?_, ?_, ?_, ?_, ?_, ?_, ?_, ?_, ?_, ?_, ?_, ?_, ?_⟩ <;> decide

theorem witness_PrintFormsByOperandKinds :
    assemble .print [.num 255, .chr 255] = some (.printCnsI 0xFF 0xFF) ∧ assemble .print [.reg .x7, .chr 0] = some (.printCns .x7 0) := by
  decide

/-- A row of one opcode and the ends of a row of several; opcodes of no row; a word with bits and a word without. -/
theorem witness_RomLowBitsAgreeWithDecoder :
    ((0x10 : Byte), (0x1D : Byte), (0x21 : BitVec 6)) ∈ romTable ∧ romBitsOf 0x10 = some 0x21 ∧ romBitsOf 0x1D = some 0x21 ∧
      romBitsOf 0x4D = some 0x2F ∧ (∀ p ∈ romTable, ¬ (p.1 ≤ (0x1E : Byte) ∧ (0x1E : Byte) ≤ p.2.1)) ∧
      (∀ p ∈ romTable, ¬ (p.1 ≤ (0x4E : Byte) ∧ (0x4E : Byte) ≤ p.2.1)) ∧
      romBitsOf (opcodeByte (sample 0x0000004E).fetch) = none ∧
      decode 0x4805004D = .ok (.printCnsI 0x05 0x48) ∧ opcodeByte 0x4805004D = 0x4D := by
  refine ⟨?_, ?_, ?_, ?_, by simp [romTable], by simp [romTable], ?_, ?_, ?_⟩ <;> decide

end Sys2Proof.Tests
end

section
/-! The step by the shapes of its instructions, and the whole-machine rules of 10_state.md.

Every instruction is one of the six shared operations on operands it takes from its word and the registers, or it raises a
fault. `Shape` says so once, word by word; `Next` is what is left of it for a step that completes. -/

namespace Sys2Proof.StateRules

open Sys2Proof.Machine Sys2Proof.Claims

/-! ## The operands of an instruction -/

/-- The second operand of a comparison and the target of a branch: IMM in the odd opcodes CMP_I and BRANCH_I, x[B] in the even ones
(43_compare_branch.md R129, R130, R150, R151). In format J the bits of B are REG (30_encoding.md R61). -/
def secondOperand (s : State) : Word :=
  if (opcodeByte s.fetch).getLsbD 0 then immField s.fetch else s.reg (bField s.fetch)

theorem secondOperand_of_even {s : State} (h : (opcodeByte s.fetch).getLsbD 0 = false) :
    secondOperand s = s.reg (bField s.fetch) := by
  rw [secondOperand, h]; rfl

theorem secondOperand_of_odd {s : State} (h : (opcodeByte s.fetch).getLsbD 0 = true) :
    secondOperand s = immField s.fetch := by
  rw [secondOperand, if_pos h]

/-- A value computed from the registers alone. -/
def RegsOnly (v : State → Word) : Prop := ∀ s s' : State, s'.regs = s.regs → v s' = v s

/-! ## The shape of a meaning -/

/-- Which shared operation a meaning `m` is on the states that fetch `w`, with the opcodes that have this shape. -/
inductive Shape (w : InstrWord) (m : State → Result) : Prop
  | stop (kind : Word → InstrWord → Fault) (eq : ∀ s, s.fetch = w → m s = raise kind s)
  | result (op : opcodeByte w ≤ 0x1D ∨ opcodeByte w = 0x40 ∨ opcodeByte w = 0x41) (v : State → Word) (hv : RegsOnly v)
      (eq : ∀ s, s.fetch = w → m s = writeResult (dstField w) (v s) s)
  | compare (op : opcodeByte w = 0x42 ∨ opcodeByte w = 0x43)
      (eq : ∀ s, s.fetch = w → m s = compareWords (s.reg (aField w)) (secondOperand s) s)
  | branch (op : opcodeByte w = 0x44 ∨ opcodeByte w = 0x45)
      (eq : ∀ s, s.fetch = w → m s = branchTo (condField w) (secondOperand s) s)
  | load (op : opcodeByte w = 0x46 ∨ opcodeByte w = 0x47)
      (eq : ∀ s, s.fetch = w → m s = loadWord (dstField w) (effectiveAddress s) s)
  | store (op : opcodeByte w = 0x48 ∨ opcodeByte w = 0x49)
      (eq : ∀ s, s.fetch = w → m s = storeWord (effectiveAddress s) (s.reg (aField w)) s)
  | print (op : 0x4A ≤ opcodeByte w ∧ opcodeByte w ≤ 0x4D)
      (eq : ∀ s, s.fetch = w → m s = printCell (printedPosition s) (printedCell s).kind (printedCell s).value s)

theorem Shape.congr {w : InstrWord} {m m' : State → Result} (h : Shape w m) (hm : ∀ s, s.fetch = w → m' s = m s) :
    Shape w m' := by
  cases h with
  | stop kind eq => exact .stop kind fun s hs => (hm s hs).trans (eq s hs)
  | result op v hv eq => exact .result op v hv fun s hs => (hm s hs).trans (eq s hs)
  | compare op eq => exact .compare op fun s hs => (hm s hs).trans (eq s hs)
  | branch op eq => exact .branch op fun s hs => (hm s hs).trans (eq s hs)
  | load op eq => exact .load op fun s hs => (hm s hs).trans (eq s hs)
  | store op eq => exact .store op fun s hs => (hm s hs).trans (eq s hs)
  | print op eq => exact .print op fun s hs => (hm s hs).trans (eq s hs)

theorem exec_branchOf (c : Cond) (r : Reg) (s : State) : exec (branchOf c r) s = branchTo c (s.reg r) s := by
  cases c <;> rfl

theorem exec_branchImmOf (c : Cond) (imm : Word) (s : State) : exec (branchImmOf c imm) s = branchTo c imm s := by
  cases c <;> rfl

/-- The one pass over the opcodes: each constructor stands under its shape. -/
theorem exec_shape {o : Opcode} {w : InstrWord} (hw : o.byte = opcodeByte w) : Shape w (exec (o.instr w)) := by
  cases o with
  | aluNul0E | aluNul0F | aluNul0EI | aluNul0FI => exact .stop _ fun _ _ => rfl
  | aluAnd | aluOr | aluXor | aluNot | aluAdd | aluSub | aluLsl | aluLsr | aluBcdl | aluBcdh | aluUmulL | aluUmulH | aluMulL
  | aluMulH | aluAndI | aluOrI | aluXorI | aluNotI | aluAddI | aluSubI | aluLslI | aluLsrI | aluBcdlI | aluBcdhI | aluUmulLI
  | aluUmulHI | aluMulLI | aluMulHI | move | moveI =>
    refine .result (by rw [← hw]; decide) _ ?_ (fun s _ => rfl)
    intro s s' h
    simp only [State.reg, h]
  | cmp | cmpI =>
    refine .compare (by rw [← hw]; decide) fun s hs => ?_
    subst hs
    simp only [secondOperand, ← hw]
    rfl
  | branch | branchI =>
    refine .branch (by rw [← hw]; decide) fun s hs => ?_
    subst hs
    simp only [Opcode.instr, exec_branchOf, exec_branchImmOf, secondOperand, ← hw]
    rfl
  | read | readI =>
    refine .load (by rw [← hw]; decide) fun s hs => ?_
    subst hs
    simp only [effectiveAddress, ← hw]
    rfl
  | write | writeI =>
    refine .store (by rw [← hw]; decide) fun s hs => ?_
    subst hs
    simp only [effectiveAddress, ← hw]
    rfl
  | printReg | printRegI | printCns | printCnsI =>
    refine .print (by rw [← hw]; decide) fun s hs => ?_
    subst hs
    simp only [printedPosition, printedCell, ← hw]
    rfl

/-! ## The step -/

theorem step_of_decode_ok {s : State} {i : Instr} (h : decode s.fetch = .ok i) : step s = exec i s := by
  simp [step, h]

theorem step_of_decode_error {s : State} {e : DecodeError} (h : decode s.fetch = .error e) : step s = raiseDecode e s := by
  simp [step, h]

/-- The step on any word at all, a word the decoder rejects being one more that stops. -/
theorem step_shape (w : InstrWord) : Shape w step := by
  cases hd : decode w with
  | error e =>
    cases e with
    | illegalInstruction => exact .stop _ fun s hs => step_of_decode_error (hs ▸ hd)
    | reservedEncoding => exact .stop _ fun s hs => step_of_decode_error (hs ▸ hd)
  | ok i =>
    obtain ⟨o, hw, -, rfl⟩ := (decode_eq_ok_iff w i).mp hd
    exact (exec_shape hw).congr fun s hs => step_of_decode_ok (hs ▸ hd)

/-- What a completed step did, with the opcodes that do it: the next state is the named update of the old one. -/
inductive Next (s : State) : State → Prop
  | result (op : opcodeByte s.fetch ≤ 0x1D ∨ opcodeByte s.fetch = 0x40 ∨ opcodeByte s.fetch = 0x41 ∨
        opcodeByte s.fetch = 0x46 ∨ opcodeByte s.fetch = 0x47) (v : Word) :
      Next s (s.setReg (dstField s.fetch) v).advance
  | compare (op : opcodeByte s.fetch = 0x42 ∨ opcodeByte s.fetch = 0x43) :
      Next s (s.setFlags (cmpFlags (s.reg (aField s.fetch)) (secondOperand s))).advance
  | taken (op : opcodeByte s.fetch = 0x44 ∨ opcodeByte s.fetch = 0x45)
      (holds : condHolds (condField s.fetch) s.flags = some true) : Next s (s.setPc (secondOperand s))
  | notTaken (op : opcodeByte s.fetch = 0x44 ∨ opcodeByte s.fetch = 0x45)
      (fails : condHolds (condField s.fetch) s.flags = some false) : Next s s.advance
  | store (op : opcodeByte s.fetch = 0x48 ∨ opcodeByte s.fetch = 0x49) (inRange : (effectiveAddress s).toNat < 256) :
      Next s (s.setMem (effectiveAddress s).toNat (s.reg (aField s.fetch))).advance
  | print (op : 0x4A ≤ opcodeByte s.fetch ∧ opcodeByte s.fetch ≤ 0x4D) :
      Next s (s.setScn (printedPosition s) (printedCell s)).advance

/-- The inversion lemma of the step: cite it instead of unfolding `step` or `exec`. -/
theorem next_of_step {s t : State} (h : step s = .next t) : Next s t := by
  cases step_shape s.fetch with
  | stop kind eq => exact absurd ((eq s rfl).symm.trans h) (raise_ne_next kind s t)
  | result op v hv eq =>
    cases (eq s rfl).symm.trans h
    exact .result (by tauto) _
  | compare op eq =>
    cases (eq s rfl).symm.trans h
    exact .compare op
  | branch op eq =>
    rw [eq s rfl] at h
    rcases branchTo_cases (condField s.fetch) (secondOperand s) s with ⟨hc, hb⟩ | ⟨hc, hb⟩ | ⟨-, hb⟩ <;>
      cases hb.symm.trans h
    · exact .taken op hc
    · exact .notTaken op hc
  | load op eq =>
    rw [eq s rfl] at h
    rcases loadWord_cases (dstField s.fetch) (effectiveAddress s) s with ⟨-, hl⟩ | ⟨-, hl⟩ <;> cases hl.symm.trans h
    exact .result (by tauto) _
  | store op eq =>
    rw [eq s rfl] at h
    rcases storeWord_cases (effectiveAddress s) (s.reg (aField s.fetch)) s with ⟨hr, hm⟩ | ⟨-, hm⟩ <;> cases hm.symm.trans h
    exact .store op hr
  | print op eq =>
    rw [eq s rfl, printCell_eq] at h
    cases h
    exact .print op

/-! ## One step: what it changes (R15, R19, R23, R27) -/

theorem pcStepped_of_pc_eq {s t : State} (h : t.pc = s.pc + 1) : PcStepped s t := by
  rw [PcStepped, h]
  bv_omega

/-- The pc of the next state, in one clause for a step that branches and one for every other. -/
theorem step_pc {s t : State} (h : step s = .next t) :
    ((opcodeByte s.fetch = 0x44 ∨ opcodeByte s.fetch = 0x45) ∧ condHolds (condField s.fetch) s.flags = some true ∧
      t.pc = secondOperand s) ∨
    ((opcodeByte s.fetch = 0x44 ∨ opcodeByte s.fetch = 0x45 → condHolds (condField s.fetch) s.flags = some false) ∧
      t.pc = s.pc + 1) := by
  cases next_of_step h with
  | taken op holds => exact .inl ⟨op, holds, rfl⟩
  | notTaken op fails => exact .inr ⟨fun _ => fails, rfl⟩
  | result op | compare op | store op | print op => exact .inr ⟨by bv_omega, rfl⟩

/-- Settles O18, from the two clauses of `step_pc`. -/
theorem pcAdvancesUnlessBranchTaken : Obligations.PcAdvancesUnlessBranchTaken := by
  intro s t h
  rcases step_pc h with ⟨op, holds, hpc⟩ | ⟨fails, hpc⟩
  · refine ⟨fun other => ?_, fun h4 _ => ?_, fun h5 _ => ?_⟩
    · rcases other with ⟨h4, h5⟩ | hc
      · exact (op.elim h4 h5).elim
      · cases holds.symm.trans hc
    · exact hpc.trans (secondOperand_of_even (by rw [h4]; rfl))
    · exact hpc.trans (secondOperand_of_odd (by rw [h5]; rfl))
  · refine ⟨fun _ => ⟨pcStepped_of_pc_eq hpc, fun hs => ?_⟩, fun h4 hc => ?_, fun h5 hc => ?_⟩
    · rw [hpc, hs]; rfl
    · cases (fails (.inl h4)).symm.trans hc
    · cases (fails (.inr h5)).symm.trans hc

/-- Settles O19: of the updates in `Next`, only that of a comparison sets the flags. -/
theorem onlyCompareWritesFlags : Obligations.OnlyCompareWritesFlags := by
  intro s t h
  cases next_of_step h with
  | compare op =>
    refine ⟨fun h2 h3 => (op.elim h2 h3).elim, fun h2 => ?_, fun h3 => ?_⟩
    · exact congrArg (cmpFlags (s.reg (aField s.fetch))) (secondOperand_of_even (by rw [h2]; rfl))
    · exact congrArg (cmpFlags (s.reg (aField s.fetch))) (secondOperand_of_odd (by rw [h3]; rfl))
  | result op | taken op | notTaken op | store op | print op =>
    exact ⟨fun _ _ => rfl, by bv_omega, by bv_omega⟩

/-- Settles O22: of the updates in `Next`, only `State.setReg` reaches a register, and it is that of DST. -/
theorem onlyDestinationRegisterChanges : Obligations.OnlyDestinationRegisterChanges := by
  intro s t h
  cases next_of_step h with
  | result op v =>
    refine ⟨fun r hr => ?_, fun hn => (hn op).elim⟩
    rw [State.advance_reg, State.setReg_reg]
    exact if_neg hr
  | compare | taken | notTaken | store | print => exact ⟨fun _ _ => rfl, fun _ _ => rfl⟩

/-- Settles O23: of the updates in `Next`, only `State.setMem` reaches MEM, at the effective address. -/
theorem onlyWritesChangeMemory : Obligations.OnlyWritesChangeMemory := by
  intro s t h
  cases next_of_step h with
  | store op =>
    refine ⟨fun k hk => ?_, fun h8 h9 => (op.elim h8 h9).elim⟩
    rw [State.advance_mem, State.setMem_mem, Memory.read_write]
    exact if_neg hk
  | result | compare | taken | notTaken | print => exact ⟨fun _ _ => rfl, fun _ _ _ => rfl⟩

/-- Settles O6: the word at pc is the word the step fetches. -/
theorem stepRunsDecodedInstruction : Obligations.StepRunsDecodedInstruction :=
  fun _ _ _ h => step_of_decode_ok h

/-- Settles O15: State.reset lists nothing in any space. -/
theorem resetIsCanonical : Obligations.ResetIsCanonical :=
  ⟨rfl, rfl, fun _ => rfl⟩

/-! ## Two steps from states that differ in what is not read (R24, R32) -/

/-- Two answers that are the same fault, or two next states related by `R`. -/
inductive Alike (R : State → State → Prop) : Result → Result → Prop
  | next {t u : State} (h : R t u) : Alike R (.next t) (.next u)
  | fault (e : Fault) : Alike R (.fault e) (.fault e)

theorem Alike.next_left {R : State → State → Prop} {x y : Result} (h : Alike R x y) {t : State} (hx : x = .next t) :
    ∃ u, y = .next u ∧ R t u := by
  subst hx
  cases h with
  | next hR => exact ⟨_, rfl, hR⟩

theorem Alike.fault_left {R : State → State → Prop} {x y : Result} (h : Alike R x y) {e : Fault} (hx : x = .fault e) :
    y = .fault e := by
  subst hx
  cases h with
  | fault => rfl

section
variable {R : State → State → Prop} {s s' : State}

theorem raise_alike (kind : Word → InstrWord → Fault) (hpc : s'.pc = s.pc) (hw : s'.fetch = s.fetch) :
    Alike R (raise kind s) (raise kind s') := by
  rw [raise, raise, hpc, hw]
  exact .fault _

theorem loadWord_alike {d : Reg} (ea : Word) (hpc : s'.pc = s.pc) (hw : s'.fetch = s.fetch) (hm : s'.mem = s.mem)
    (hR : ∀ v, R (s.setReg d v).advance (s'.setReg d v).advance) : Alike R (loadWord d ea s) (loadWord d ea s') := by
  unfold loadWord
  split
  · exact raise_alike _ hpc hw
  · rw [hm]; exact .next (hR _)

theorem storeWord_alike (ea v : Word) (hpc : s'.pc = s.pc) (hw : s'.fetch = s.fetch)
    (hR : ∀ k, R (s.setMem k v).advance (s'.setMem k v).advance) : Alike R (storeWord ea v s) (storeWord ea v s') := by
  unfold storeWord
  split
  · exact raise_alike _ hpc hw
  · exact .next (hR _)

theorem branchTo_alike (c : Cond) (target : Word) (hpc : s'.pc = s.pc) (hw : s'.fetch = s.fetch) (hf : s'.flags = s.flags)
    (hR : ∀ p, R (s.setPc p) (s'.setPc p)) : Alike R (branchTo c target s) (branchTo c target s') := by
  unfold branchTo
  rw [hf]
  split
  · exact raise_alike _ hpc hw
  · exact .next (hR _)
  · rw [State.advance, State.advance, hpc]; exact .next (hR _)

end

/-- Other flags change nothing of a step that is no branch but the flags after it. -/
theorem step_withFlags (s : State) (f : Flags) (h4 : opcodeByte s.fetch ≠ 0x44) (h5 : opcodeByte s.fetch ≠ 0x45) :
    Alike (fun t u => ∃ g, u = withFlags g t) (step s) (step (withFlags f s)) := by
  cases step_shape s.fetch with
  | stop kind eq =>
    rw [eq s rfl, eq (withFlags f s) rfl]
    exact raise_alike kind rfl rfl
  | result op v hv eq =>
    rw [eq s rfl, eq (withFlags f s) rfl, hv s (withFlags f s) rfl]
    exact .next ⟨f, rfl⟩
  | compare op eq =>
    rw [eq s rfl, eq (withFlags f s) rfl]
    exact .next ⟨_, rfl⟩
  | branch op eq => exact (op.elim h4 h5).elim
  | load op eq =>
    rw [eq s rfl, eq (withFlags f s) rfl]
    exact loadWord_alike _ rfl rfl rfl fun _ => ⟨f, rfl⟩
  | store op eq =>
    rw [eq s rfl, eq (withFlags f s) rfl]
    exact storeWord_alike _ _ rfl rfl fun _ => ⟨f, rfl⟩
  | print op eq =>
    rw [eq s rfl, eq (withFlags f s) rfl, printCell_eq, printCell_eq]
    exact .next ⟨f, rfl⟩

/-- Settles O20: putting the flags of one next state into the other gives the other. -/
theorem onlyBranchesReadFlags : Obligations.OnlyBranchesReadFlags := by
  intro s f h4 h5
  have alike := step_withFlags s f h4 h5
  refine ⟨fun t ht => ?_, fun e he => alike.fault_left he⟩
  obtain ⟨_, hu, g, rfl⟩ := alike.next_left ht
  exact ⟨withFlags g t, hu, rfl⟩

/-! ## The screen writes of a step and of a run (R32) -/

theorem screenWrites_of_append {s t : State} {new : List ScnEvent} (h : t.scnLog = s.scnLog ++ new) :
    screenWrites s t = new := by
  rw [screenWrites, h, List.drop_left]

theorem screenWrites_of_eq {s t : State} (h : t.scnLog = s.scnLog) : screenWrites s t = [] :=
  screenWrites_of_append (by rw [h, List.append_nil])

/-- The list of `t` is that of `s` with more events after it. -/
def Appends (s t : State) : Prop := t.scnLog = s.scnLog ++ screenWrites s t

theorem Appends.of_append {s t : State} {new : List ScnEvent} (h : t.scnLog = s.scnLog ++ new) : Appends s t := by
  rw [Appends, screenWrites_of_append h, h]

theorem Appends.of_eq {s t : State} (h : t.scnLog = s.scnLog) : Appends s t := .of_append (h.trans (List.append_nil _).symm)

/-- The screen writes of a run in two parts are those of the first, then those of the second. -/
theorem screenWrites_trans {s t u : State} (hst : Appends s t) (htu : Appends t u) :
    screenWrites s u = screenWrites s t ++ screenWrites t u := by
  apply screenWrites_of_append
  rw [← List.append_assoc, ← hst, ← htu]

theorem Appends.trans {s t u : State} (hst : Appends s t) (htu : Appends t u) : Appends s u := by
  rw [Appends, screenWrites_trans hst htu, ← List.append_assoc, ← hst, ← htu]

theorem step_appends {s t : State} (h : step s = .next t) : Appends s t := by
  cases next_of_step h with
  | print => exact .of_append rfl
  | result | compare | taken | notTaken | store => exact .of_eq rfl

/-- `u` is `t` with another screen, and with the events listed since `s` after those of `l`. -/
def SameWrites (s : State) (l : List ScnEvent) (t u : State) : Prop := ∃ c, u = withScreen c (l ++ screenWrites s t) t

theorem SameWrites.of_eq {s t u : State} {c : Screen} {l : List ScnEvent} (ht : t.scnLog = s.scnLog)
    (hu : u = withScreen c l t) : SameWrites s l t u :=
  ⟨c, by rw [screenWrites_of_eq ht, List.append_nil, hu]⟩

/-- Another screen and list change nothing of a step but the screen after it and the events listed before its own. -/
theorem step_withScreen (s : State) (c : Screen) (l : List ScnEvent) :
    Alike (SameWrites s l) (step s) (step (withScreen c l s)) := by
  cases step_shape s.fetch with
  | stop kind eq =>
    rw [eq s rfl, eq (withScreen c l s) rfl]
    exact raise_alike kind rfl rfl
  | result op v hv eq =>
    rw [eq s rfl, eq (withScreen c l s) rfl, hv s (withScreen c l s) rfl]
    exact .next (.of_eq rfl rfl)
  | compare op eq =>
    rw [eq s rfl, eq (withScreen c l s) rfl]
    exact .next (.of_eq rfl rfl)
  | branch op eq =>
    rw [eq s rfl, eq (withScreen c l s) rfl]
    exact branchTo_alike _ _ rfl rfl rfl fun _ => .of_eq rfl rfl
  | load op eq =>
    rw [eq s rfl, eq (withScreen c l s) rfl]
    exact loadWord_alike _ rfl rfl rfl fun _ => .of_eq rfl rfl
  | store op eq =>
    rw [eq s rfl, eq (withScreen c l s) rfl]
    exact storeWord_alike _ _ rfl rfl fun _ => .of_eq rfl rfl
  | print op eq =>
    rw [eq s rfl, eq (withScreen c l s) rfl, printCell_eq, printCell_eq]
    refine .next ⟨c.write (printedPosition s).toNat (printedCell s), ?_⟩
    rw [screenWrites_of_append rfl]
    rfl

theorem steps_appends {s t : State} (h : Steps s t) : Appends s t := by
  induction h with
  | refl => exact .of_eq rfl
  | tail _ hs ih => exact ih.trans (step_appends hs)

/-- The run from `s` with any other screen and list, in step with the run from `s` to `t`. -/
theorem steps_withScreen {s t : State} (h : Steps s t) (c : Screen) (l : List ScnEvent) :
    ∃ u, Steps (withScreen c l s) u ∧ SameWrites s l t u := by
  induction h with
  | refl => exact ⟨_, .refl _, .of_eq rfl rfl⟩
  | @tail t t' h hs ih =>
    obtain ⟨_, hu, d, rfl⟩ := ih
    obtain ⟨_, hs', d', rfl⟩ := (step_withScreen t d _).next_left hs
    refine ⟨_, hu.tail hs', d', ?_⟩
    rw [screenWrites_trans (steps_appends h) (step_appends hs), List.append_assoc]

/-- Settles O59, by `steps_withScreen`, an induction over the run with `step_withScreen` at each step. -/
theorem screenWritesAreAFunctionOfTheRun : Obligations.ScreenWritesAreAFunctionOfTheRun := by
  intro s t h
  refine ⟨steps_appends h, fun c l => ?_⟩
  obtain ⟨_, hu, d, rfl⟩ := steps_withScreen h c l
  exact ⟨_, hu, screenWrites_of_append rfl, rfl⟩

end Sys2Proof.StateRules
end

section
/-! The rules of 20_memory.md: what a step keeps of the three spaces, that the screen is never read, and reading after writing.

What a completed step did is `StateRules.next_of_step`; here stand the loads and stores with an address in range, the print
instructions by their one shared operation, and the word the loader puts at pc. -/

namespace Sys2Proof.MemoryRules

open Sys2Proof.Machine Sys2Proof.Claims Sys2Proof.StateRules

/-! ## Loads and stores in range (20_memory.md R37, 44_memory_ops.md R155 to R158) -/

theorem memIndex_wrap8 (addr : Word) : memIndex .wrap8 addr = some (addr.toNat % 256) := rfl

theorem exec_read (d b : Reg) (s : State) : exec (.read d b) s = loadWord d (s.reg b) s := rfl

theorem exec_readI (d : Reg) (imm : Word) (s : State) : exec (.readI d imm) s = loadWord d imm s := rfl

theorem exec_write (a b : Reg) (s : State) : exec (.write a b) s = storeWord (s.reg b) (s.reg a) s := rfl

theorem loadWord_of_lt (d : Reg) {ea : Word} (h : ea.toNat < 256) (s : State) :
    loadWord d ea s = .next (s.setReg d (s.mem.read ea.toNat)).advance := by
  rcases loadWord_cases d ea s with ⟨-, hl⟩ | ⟨hge, -⟩
  · exact hl
  · omega

theorem storeWord_of_lt {ea : Word} (h : ea.toNat < 256) (v : Word) (s : State) :
    storeWord ea v s = .next (s.setMem ea.toNat v).advance := by
  rcases storeWord_cases ea v s with ⟨-, hm⟩ | ⟨hge, -⟩
  · exact hm
  · omega

/-! ## The print instructions (45_print.md R160 to R163) -/

theorem regsOnly_reg (r : Reg) : RegsOnly fun s => s.reg r := by
  intro s s' h
  simp only [State.reg, h]

theorem regsOnly_const (x : Word) : RegsOnly fun _ => x := fun _ _ _ => rfl

/-- A print instruction is `printCell` with a position and a value taken from its fields and the registers. -/
theorem exec_of_print_opcode {i : Instr} (h : i.opcode ∈ [.printReg, .printRegI, .printCns, .printCnsI]) :
    ∃ (pos : State → Word) (kind : ScnKind) (v : State → Word), RegsOnly pos ∧ RegsOnly v ∧
      ∀ s, exec i s = printCell (pos s) kind (v s) s := by
  cases i with
  | printReg a b => exact ⟨_, _, _, regsOnly_reg b, regsOnly_reg a, fun _ => rfl⟩
  | printRegI a imm => exact ⟨_, _, _, regsOnly_const imm, regsOnly_reg a, fun _ => rfl⟩
  | printCns b c => exact ⟨_, _, _, regsOnly_reg b, regsOnly_const _, fun _ => rfl⟩
  | printCnsI x c => exact ⟨_, _, _, regsOnly_const _, regsOnly_const _, fun _ => rfl⟩
  | _ => simp [Instr.opcode] at h

/-- A print done a second time finds the same position and value in the registers, and writes over its own cell. -/
theorem printCell_twice {pos v : State → Word} {kind : ScnKind} (hpos : RegsOnly pos) (hv : RegsOnly v) {s t u : State}
    (ht : printCell (pos s) kind (v s) s = .next t) (hu : printCell (pos t) kind (v t) t = .next u) (k : Nat) :
    u.scn.read k = t.scn.read k := by
  rw [printCell_eq] at ht
  have hregs : t.regs = s.regs := by cases ht; rfl
  rw [hpos s t hregs, hv s t hregs, printCell_eq] at hu
  cases hu
  cases ht
  simp only [State.advance_scn, State.setScn_scn, Screen.read_write]
  split <;> rfl

/-! ## What the loader's word changes (20_memory.md R44) -/

theorem tableWord_32 (w : Nat) : tableWord 32 w = BitVec.ofNat 32 w :=
  BitVec.eq_of_toNat_eq (by simp [tableWord])

theorem withFetchWord_imem_read (s : State) (nbits w k : Nat) :
    (s.withFetchWord nbits w).imem.read k = if k = s.pc.toNat then tableWord nbits w else s.imem.read k :=
  InstrMemory.read_write s.imem s.pc.toNat (tableWord nbits w) k

theorem withFetchWord_fetch (s : State) (nbits w : Nat) : (s.withFetchWord nbits w).fetch = tableWord nbits w :=
  (withFetchWord_imem_read s nbits w s.pc.toNat).trans (if_pos rfl)

/-! ## A step and IMEM (20_memory.md R45) -/

/-- Of the updates in `Next`, none reaches IMEM. -/
theorem step_imem {s t : State} (h : step s = .next t) : t.imem = s.imem := by
  cases next_of_step h with
  | result | compare | taken | notTaken | store | print => rfl

/-! ## The statements -/

/-- Settles O14: of the updates in `Next`, a store is to an address below 256, a print is to a 16-bit position, and the others
leave the three spaces alone. -/
theorem stepKeepsCanonicalForm : Obligations.StepKeepsCanonicalForm := by
  intro s t hs h
  cases next_of_step h with
  | store op inRange => exact State.wf_setMem hs inRange _
  | print op => exact State.wf_setScn hs _ _
  | result | compare | taken | notTaken => exact (State.wf_congr rfl rfl rfl).trans hs

/-- Settles O17, from `step_imem`. -/
theorem noStepWritesImem : Obligations.NoStepWritesImem :=
  fun _ _ h => ⟨step_imem h, fun k => congrArg (InstrMemory.read · k) (step_imem h)⟩

/-- Settles O21, its first half by `step_withScreen`, which runs the step under another screen, and its second by
`printCell_twice`. -/
theorem screenIsWriteOnly : Obligations.ScreenIsWriteOnly := by
  refine ⟨fun s c l => ?_, fun i s t u hi ht hu k => ?_⟩
  · have alike := step_withScreen s c l
    refine ⟨fun t ht => ?_, fun e he => alike.fault_left he⟩
    obtain ⟨_, hu, _, rfl⟩ := alike.next_left ht
    exact ⟨_, hu, rfl⟩
  · obtain ⟨pos, kind, v, hpos, hv, hexec⟩ := exec_of_print_opcode hi
    exact printCell_twice hpos hv ((hexec s).symm.trans ht) ((hexec t).symm.trans hu) k

/-- Settles O52: both reads look into the MEM of the WRITE, one at its address and one beside it. -/
theorem readAfterWrite : Obligations.ReadAfterWrite := by
  intro a b d s hb
  refine ⟨_, _, (exec_write a b s).trans (storeWord_of_lt hb _ s), (exec_read d b _).trans (loadWord_of_lt d hb _), ?_,
    fun k hk hne => ⟨_, (exec_readI d k _).trans (loadWord_of_lt d hk _), ?_⟩⟩
  · simp
  · have hne' : k.toNat ≠ (s.reg b).toNat := fun h => hne (BitVec.eq_of_toNat_eq h)
    simp [hne']

/-- Settles O7: IMEM is written at pc, where the fetch reads. -/
theorem fetchWordIsTheNextInstruction : Obligations.FetchWordIsTheNextInstruction := by
  intro s w
  refine ⟨?_, fun k hk => ?_, rfl⟩
  · rw [withFetchWord_fetch, tableWord_32]
  · rw [withFetchWord_imem_read, if_neg hk]

/-- Settles O53: below 256 the remainder is the address, and from 256 on only wrap8 names a location. -/
theorem addressModesAgreeInRange : Obligations.AddressModesAgreeInRange := by
  intro addr
  rw [memIndex_fault, memIndex_wrap8]
  by_cases h : addr.toNat < 256
  · have same : addr.toNat % 256 = addr.toNat := Nat.mod_eq_of_lt h
    simp [h, same]
  · simp [h]

end Sys2Proof.MemoryRules
end

section
/-! The rules of 30_encoding.md on words: decoding and encoding undo each other, and the unused bits are ignored.

`encode_instr_eq` is the one pass over the opcodes: an encoded field is the word under the field's mask, so the word encoded from
the fields of `w` is `w` under the mask of its row. -/

namespace Sys2Proof.EncodingRules

open Sys2Proof.Machine Sys2Proof.Claims

/-! ## The fields of a packed word (R56 to R59) -/

section
variable (o : Opcode) (d a b : BitVec 3) (c : Byte) (imm : Word) (k : Cond) (r : Reg)

@[simp] theorem dstField_packR : dstField (packR o d a b c) = Reg.ofNum d := congrArg Reg.ofNum (packR_dst o d a b c)
@[simp] theorem aField_packR : aField (packR o d a b c) = Reg.ofNum a := congrArg Reg.ofNum (packR_a o d a b c)
@[simp] theorem bField_packR : bField (packR o d a b c) = Reg.ofNum b := congrArg Reg.ofNum (packR_b o d a b c)
@[simp] theorem constField_packR : constField (packR o d a b c) = c := packR_const o d a b c

@[simp] theorem dstField_packI : dstField (packI o d a imm) = Reg.ofNum d := congrArg Reg.ofNum (packI_dst o d a imm)
@[simp] theorem aField_packI : aField (packI o d a imm) = Reg.ofNum a := congrArg Reg.ofNum (packI_a o d a imm)
@[simp] theorem immField_packI : immField (packI o d a imm) = imm := packI_imm o d a imm
@[simp] theorem xField_packI : xField (packI o d a imm) = imm.extractLsb' 0 8 := packI_x o d a imm
@[simp] theorem constField_packI : constField (packI o d a imm) = imm.extractLsb' 8 8 := packI_const o d a imm

@[simp] theorem condField_packJ : condField (packJ k r) = k :=
  (congrArg Cond.ofCode (packJ_cond k r)).trans (Cond.ofCode_code k)
@[simp] theorem bField_packJ : bField (packJ k r) = r := (congrArg Reg.ofNum (packJ_reg k r)).trans (Reg.ofNum_num r)

@[simp] theorem condField_packJI : condField (packJI k imm) = k :=
  (congrArg Cond.ofCode (packJI_cond k imm)).trans (Cond.ofCode_code k)
@[simp] theorem immField_packJI : immField (packJI k imm) = imm := packJI_imm k imm

end

/-! ## The four formats of canonical words -/

/-- The canonical words of an opcode, each in its opcode's format (R56 to R59). -/
inductive Packed : Opcode → InstrWord → Prop
  | r (o : Opcode) (format : o.format = .r) (d a b : BitVec 3) (c : Byte) : Packed o (packR o d a b c)
  | i (o : Opcode) (format : o.format = .i) (d a : BitVec 3) (imm : Word) : Packed o (packI o d a imm)
  | j (c : Cond) (r : Reg) : Packed .branch (packJ c r)
  | ji (c : Cond) (imm : Word) : Packed .branchI (packJI c imm)

theorem Packed.opcodeByte {o : Opcode} {w : InstrWord} (h : Packed o w) : opcodeByte w = o.byte := by
  cases h with
  | r => exact packR_opcode ..
  | i => exact packI_opcode ..
  | j => exact packJ_opcode ..
  | ji => exact packJI_opcode ..

theorem Packed.pad {o : Opcode} {w : InstrWord} (h : Packed o w) : w &&& o.format.padMask = 0 := by
  cases h with
  | r _ format => rw [format]; exact packR_pad ..
  | i _ format => rw [format]; exact packI_pad ..
  | j => exact packJ_pad ..
  | ji => exact packJI_pad ..

theorem encode_packed (i : Instr) : Packed i.opcode (encode i) := by
  cases i with
  | branch | b | beq | bne | blt | ble | bgt | bge | bcs | bcc | bmi | bpl | bvs | bvc | bhi | bls => exact .j ..
  | branchI | bImm | beqImm | bneImm | bltImm | bleImm | bgtImm | bgeImm | bcsImm | bccImm | bmiImm | bplImm | bvsImm | bvcImm
  | bhiImm | blsImm => exact .ji ..
  | aluAnd | aluOr | aluXor | aluNot | aluAdd | aluSub | aluLsl | aluLsr | aluBcdl | aluBcdh | aluUmulL | aluUmulH | aluMulL
  | aluMulH | aluNul0E | aluNul0F | move | cmp | read | write | printReg | printCns => exact .r _ rfl ..
  | aluAndI | aluOrI | aluXorI | aluNotI | aluAddI | aluSubI | aluLslI | aluLsrI | aluBcdlI | aluBcdhI | aluUmulLI | aluUmulHI
  | aluMulLI | aluMulHI | aluNul0EI | aluNul0FI | moveI | cmpI | readI | writeI | printRegI | printCnsI => exact .i _ rfl ..

/-! ## Decoding a canonical word (R74) -/

/-- A canonical word decodes to what its fields say, by the row of its opcode. -/
theorem decode_encode (i : Instr) : decode (encode i) = .ok (i.opcode.instr (encode i)) :=
  (decode_eq_ok_iff _ _).mpr ⟨i.opcode, (encode_packed i).opcodeByte.symm, .inr (encode_packed i).pad, rfl⟩

theorem instr_encode_branch (c : Cond) (r : Reg) : Opcode.branch.instr (encode (.branch c r)) = branchOf c r := by
  simp [encode, Opcode.instr]

theorem instr_encode_branchI (c : Cond) (imm : Word) :
    Opcode.branchI.instr (encode (.branchI c imm)) = branchImmOf c imm := by
  simp [encode, Opcode.instr]

theorem encode_branchOf (c : Cond) (r : Reg) : encode (branchOf c r) = packJ c r := by cases c <;> rfl

theorem encode_branchImmOf (c : Cond) (imm : Word) : encode (branchImmOf c imm) = packJI c imm := by cases c <;> rfl

/-- The fields of a canonical word are the operands encoded, and a branch word is named by its mnemonic row. -/
theorem instr_encode {i : Instr} (h : i.wellFormed = true) : i.opcode.instr (encode i) = i := by
  cases i with
  | branch c r =>
    obtain rfl : c = .reservedF := by simpa [Instr.wellFormed] using h
    exact instr_encode_branch .reservedF r
  | branchI c imm =>
    obtain rfl : c = .reservedF := by simpa [Instr.wellFormed] using h
    exact instr_encode_branchI .reservedF imm
  | move dst b => simp [encode, packMove, Instr.opcode, Opcode.instr, moveSource]
  | _ => simp [encode, Instr.opcode, Opcode.instr, branchOf, branchImmOf]

/-- Settles O1: the opcode and the pad bits of a canonical word are those of its format (`decode_encode`), and its fields are the
operands (`instr_encode`). -/
theorem decodeInvertsEncode : Obligations.DecodeInvertsEncode := by
  intro i h
  rw [decode_encode, instr_encode h]

/-- Settles O5: both spellings are packed by `packJ` or `packJI`, and both are run by `branchTo`. -/
theorem branchRowsShareOneMeaning : Obligations.BranchRowsShareOneMeaning := by
  intro c r imm _
  refine ⟨encode_branchOf c r, ?_, fun s => StateRules.exec_branchOf c r s,
    encode_branchImmOf c imm, ?_, fun s => StateRules.exec_branchImmOf c imm s⟩
  · exact (decode_encode (.branch c r)).trans (congrArg _ (instr_encode_branch c r))
  · exact (decode_encode (.branchI c imm)).trans (congrArg _ (instr_encode_branchI c imm))

/-! ## A field, put back in its place, is the word under the field's mask -/

section
variable (w : InstrWord)

theorem opcode_in_place : (opcodeByte w).setWidth 32 = w &&& 0x000000FF := by
  apply bits_ext; intro i hi; simp only [opcodeByte, BitVec.getLsbD_extractLsb', BitVec.getLsbD_and,
    BitVec.getLsbD_setWidth]; interval_cases i <;> simp

theorem dst_in_place : (dstField w).num.setWidth 32 <<< 8 = w &&& 0x00000700 := by
  rw [dstField, Reg.num_ofNum]
  apply bits_ext; intro i hi; simp only [BitVec.getLsbD_extractLsb', BitVec.getLsbD_and, BitVec.getLsbD_shiftLeft,
    BitVec.getLsbD_setWidth]; interval_cases i <;> simp

theorem a_in_place : (aField w).num.setWidth 32 <<< 12 = w &&& 0x00007000 := by
  rw [aField, Reg.num_ofNum]
  apply bits_ext; intro i hi; simp only [BitVec.getLsbD_extractLsb', BitVec.getLsbD_and, BitVec.getLsbD_shiftLeft,
    BitVec.getLsbD_setWidth]; interval_cases i <;> simp

theorem b_in_place : (bField w).num.setWidth 32 <<< 16 = w &&& 0x00070000 := by
  rw [bField, Reg.num_ofNum]
  apply bits_ext; intro i hi; simp only [BitVec.getLsbD_extractLsb', BitVec.getLsbD_and, BitVec.getLsbD_shiftLeft,
    BitVec.getLsbD_setWidth]; interval_cases i <;> simp

theorem const_in_place : (constField w).setWidth 32 <<< 24 = w &&& 0xFF000000 := by
  apply bits_ext; intro i hi; simp only [constField, BitVec.getLsbD_extractLsb', BitVec.getLsbD_and, BitVec.getLsbD_shiftLeft,
    BitVec.getLsbD_setWidth]; interval_cases i <;> simp

theorem imm_in_place : (immField w).setWidth 32 <<< 16 = w &&& 0xFFFF0000 := by
  apply bits_ext; intro i hi; simp only [immField, BitVec.getLsbD_extractLsb', BitVec.getLsbD_and, BitVec.getLsbD_shiftLeft,
    BitVec.getLsbD_setWidth]; interval_cases i <;> simp

theorem cond_in_place : (condField w).code.setWidth 32 <<< 8 = w &&& 0x00000F00 := by
  rw [condField, Cond.code_ofCode]
  apply bits_ext; intro i hi; simp only [BitVec.getLsbD_extractLsb', BitVec.getLsbD_and, BitVec.getLsbD_shiftLeft,
    BitVec.getLsbD_setWidth]; interval_cases i <;> simp

/-- CONST and X are the two bytes of IMM (R65). -/
theorem constX_fields : constX (constField w) (xField w) = immField w := by
  apply bits_ext; intro i hi; simp only [constX, constField, xField, immField, BitVec.getLsbD_extractLsb', BitVec.getLsbD_or,
    BitVec.getLsbD_shiftLeft, BitVec.getLsbD_setWidth]; interval_cases i <;> simp

end

/-- A field that is not encoded is under the empty mask. -/
theorem zero_in_place (w : InstrWord) (l k : Nat) : (0 : BitVec l).setWidth 32 <<< k = w &&& 0 := by simp

/-! ## Encoding what was decoded -/

/-- The bits of a row that its opcode and the fields it uses fill: those that matter but the pad bits (R62, R63). -/
def written (o : Opcode) : InstrWord := o.significant &&& ~~~o.format.padMask

/-- The one pass over the opcodes: each field encoded is the word under that field's mask. -/
theorem encode_instr_eq {o : Opcode} {w : InstrWord} (hw : o.byte = opcodeByte w) :
    encode (o.instr w) = w &&& written o := by
  have hop : o.byte.setWidth 32 = w &&& 0x000000FF := by rw [hw, opcode_in_place]
  cases o with
  | aluAnd | aluOr | aluXor | aluAdd | aluSub | aluLsl | aluLsr | aluUmulL | aluUmulH | aluMulL | aluMulH | aluNot | aluBcdl
  | aluBcdh | aluNul0E | aluNul0F | cmp | read | write | printReg | printCns =>
    simp only [Opcode.instr, encode, packR, hop, dst_in_place, a_in_place, b_in_place, const_in_place, zero_in_place w,
      ← BitVec.and_or_distrib_left]
    rfl
  | aluAndI | aluOrI | aluXorI | aluNotI | aluAddI | aluSubI | aluLslI | aluLsrI | aluBcdlI | aluBcdhI | aluUmulLI | aluUmulHI
  | aluMulLI | aluMulHI | aluNul0EI | aluNul0FI | moveI | cmpI | readI | writeI | printRegI | printCnsI =>
    simp only [Opcode.instr, encode, packI, hop, dst_in_place, a_in_place, constX_fields, imm_in_place, zero_in_place w,
      ← BitVec.and_or_distrib_left]
    rfl
  | move =>
    simp only [Opcode.instr, encode, packMove, moveSource, packR, hop, dst_in_place, b_in_place, zero_in_place w,
      ← BitVec.and_or_distrib_left]
    rfl
  | branch =>
    simp only [Opcode.instr, encode_branchOf, packJ, hop, cond_in_place, b_in_place, ← BitVec.and_or_distrib_left]
    rfl
  | branchI =>
    simp only [Opcode.instr, encode_branchImmOf, packJI, hop, cond_in_place, imm_in_place, ← BitVec.and_or_distrib_left]
    rfl

/-- No bit that matters in a reserved row is a pad bit of its format. -/
theorem written_of_reserved {o : Opcode} (h : o.reserved = true) : written o = o.significant := by
  cases o with
  | aluNul0E | aluNul0F | aluNul0EI | aluNul0FI => rfl
  | _ => cases h

/-- Once the pad bits are 0, what is written is all that matters. -/
theorem and_written {o : Opcode} {w : InstrWord} (h : o.reserved = true ∨ w &&& o.format.padMask = 0) :
    w &&& written o = w &&& o.significant := by
  rcases h with h | h
  · rw [written_of_reserved h]
  · have off (i : Nat) : (w.getLsbD i && o.format.padMask.getLsbD i) = false := by
      rw [← BitVec.getLsbD_and, h]; exact BitVec.getLsbD_zero
    apply bits_ext
    intro i hi
    simp only [written, BitVec.getLsbD_and, BitVec.getLsbD_not, hi, decide_true, Bool.true_and]
    cases hw : w.getLsbD i with
    | false => rfl
    | true => simp [by simpa [hw] using off i]

/-- What is encoded of a word that decodes is the word with its unused bits cleared. -/
theorem encode_of_decode {w : InstrWord} {i : Instr} (h : decode w = .ok i) :
    ∃ o : Opcode, o.byte = opcodeByte w ∧ o.instr w = i ∧ encode i = w &&& o.significant := by
  obtain ⟨o, hw, hp, rfl⟩ := (decode_eq_ok_iff w i).mp h
  exact ⟨o, hw, rfl, (encode_instr_eq hw).trans (and_written hp)⟩

/-- The decoder names a branch word by its mnemonic row wherever it has one. -/
theorem wellFormed_instr (o : Opcode) (w : InstrWord) : (o.instr w).wellFormed = true := by
  cases o with
  | branch => simp only [Opcode.instr]; cases condField w <;> rfl
  | branchI => simp only [Opcode.instr]; cases condField w <;> rfl
  | _ => rfl

theorem opcode_instr (o : Opcode) (w : InstrWord) : (o.instr w).opcode = o := by
  cases o with
  | branch => simp only [Opcode.instr]; cases condField w <;> rfl
  | branchI => simp only [Opcode.instr]; cases condField w <;> rfl
  | _ => rfl

/-! ## The unused bits (R63) -/

theorem byte_injective : Function.Injective Opcode.byte := fun o p h =>
  Option.some.inj ((Opcode.ofByte_byte o).symm.trans (h ▸ Opcode.ofByte_byte p))

theorem significantBits_eq : significantBits = Opcode.all.map fun o => (o.byte, o.significant) := rfl

/-- A row of the table is an opcode's byte and the bits of it that matter. -/
theorem exists_of_mem_significantBits {p : Byte × InstrWord} (h : p ∈ significantBits) :
    ∃ o : Opcode, p = (o.byte, o.significant) := by
  rw [significantBits_eq] at h
  obtain ⟨o, -, rfl⟩ := List.mem_map.mp h
  exact ⟨o, rfl⟩

/-- Settles O2: `encode_of_decode` at the row of the opcode, and `wellFormed_instr`. -/
theorem decodedWordIsItsEncoding : Obligations.DecodedWordIsItsEncoding := by
  intro w i h
  obtain ⟨o, hw, rfl, he⟩ := encode_of_decode h
  refine ⟨wellFormed_instr o w, fun p hp hpw => ?_⟩
  obtain ⟨q, rfl⟩ := exists_of_mem_significantBits hp
  obtain rfl : q = o := byte_injective (hpw.trans hw.symm)
  exact he

/-- Two instructions that the decoder names have different canonical words. -/
theorem encode_injOn {i j : Instr} (hi : i.wellFormed = true) (hj : j.wellFormed = true) (h : encode i = encode j) : i = j :=
  Except.ok.inj ((decodeInvertsEncode i hi).symm.trans (h ▸ decodeInvertsEncode j hj))

/-- The decoder's answer, once the opcode is known. -/
theorem decode_of_opcode {o : Opcode} {w : InstrWord} (hw : o.byte = opcodeByte w) :
    decode w = if padFault Config.padMode o w then .error .reservedEncoding else .ok (o.instr w) := by
  rw [decode, ← hw, Opcode.ofByte_byte]

theorem opcodeByte_and_significant {o : Opcode} {w : InstrWord} (hw : o.byte = opcodeByte w) :
    o.byte = opcodeByte (w &&& o.significant) := by
  have whole : o.significant.extractLsb' 0 8 = BitVec.allOnes 8 := by cases o <;> rfl
  rw [opcodeByte, BitVec.extractLsb'_and, whole, BitVec.and_allOnes, hw, opcodeByte]

/-- In a row that is not reserved the pad bits matter. -/
theorem padFault_and_significant (o : Opcode) (w : InstrWord) :
    padFault Config.padMode o (w &&& o.significant) = padFault Config.padMode o w := by
  cases hr : o.reserved with
  | true => simp [padFault, hr]
  | false =>
    have pad : o.significant &&& o.format.padMask = o.format.padMask := by
      cases o with
      | aluNul0E | aluNul0F | aluNul0EI | aluNul0FI => cases hr
      | _ => rfl
    simp only [padFault, BitVec.and_assoc, pad]

/-- Both instructions are encoded by the bits that matter, so they are one. -/
theorem instr_and_significant {o : Opcode} {w : InstrWord} (hw : o.byte = opcodeByte w) :
    o.instr (w &&& o.significant) = o.instr w := by
  apply encode_injOn (wellFormed_instr _ _) (wellFormed_instr _ _)
  rw [encode_instr_eq (opcodeByte_and_significant hw), encode_instr_eq hw, written, BitVec.and_assoc,
    ← BitVec.and_assoc o.significant o.significant, BitVec.and_self]

theorem decode_and_significant {o : Opcode} {w : InstrWord} (hw : o.byte = opcodeByte w) :
    decode (w &&& o.significant) = decode w := by
  rw [decode_of_opcode (opcodeByte_and_significant hw), decode_of_opcode hw, padFault_and_significant,
    instr_and_significant hw]

/-- The name the decoder gives a canonical word has that word. -/
theorem encode_instr_encode (i : Instr) : encode (i.opcode.instr (encode i)) = encode i := by
  cases i with
  | branch c r => exact (congrArg encode (instr_encode_branch c r)).trans (encode_branchOf c r)
  | branchI c imm => exact (congrArg encode (instr_encode_branchI c imm)).trans (encode_branchImmOf c imm)
  | _ => exact congrArg encode (instr_encode rfl)

/-- A canonical word has every unused bit 0: it is what is encoded of itself. -/
theorem encode_and_not_significant (i : Instr) : encode i &&& ~~~i.opcode.significant = 0 := by
  have packed := encode_packed i
  have same : encode i &&& i.opcode.significant = encode i := by
    rw [← and_written (.inr packed.pad), ← encode_instr_eq packed.opcodeByte.symm, encode_instr_encode]
  rw [← same, BitVec.and_assoc, BitVec.and_not_self]
  exact BitVec.and_zero

/-- Settles O3, both halves at the row's opcode: `decode_and_significant` and `encode_and_not_significant`. -/
theorem unusedBitsAreIgnored : Obligations.UnusedBitsAreIgnored := by
  refine ⟨fun p hp w hw => ?_, fun p hp i hi => ?_⟩ <;> obtain ⟨o, rfl⟩ := exists_of_mem_significantBits hp
  · exact decode_and_significant hw.symm
  · obtain rfl : i.opcode = o := byte_injective hi
    exact encode_and_not_significant i

end Sys2Proof.EncodingRules
end

section
/-! The assembly statements of 30_encoding.md R75 to R79: what each row assembles to, and that no other statement does. -/

namespace Sys2Proof.AssemblerRules

open Sys2Proof.Machine Sys2Proof.Claims

/-! ## Numbers, positions and character codes (R79) -/

theorem asmImm_of_mem {k : Int} (h : -32768 ≤ k ∧ k ≤ 65535) : asmImm k = some (BitVec.ofInt 16 k) := if_pos h

theorem asmImm_of_not_mem {k : Int} (h : k < -32768 ∨ 65535 < k) : asmImm k = none := if_neg (by omega)

theorem asmChar_of_le {c : Nat} (h : c ≤ 255) : asmChar c = some (BitVec.ofNat 8 c) := if_pos h

theorem asmChar_of_lt {c : Nat} (h : 255 < c) : asmChar c = none := if_neg (by omega)

theorem asmPos_of_mem {k : Int} (h : 0 ≤ k ∧ k ≤ 255) : asmPos k = some (BitVec.ofInt 8 k) := if_pos h

theorem asmPos_of_not_mem {k : Int} (h : k < 0 ∨ 255 < k) : asmPos k = none := if_neg (by omega)

/-- The two's-complement pattern of a number is its remainder modulo 2^16. -/
theorem ofInt_16_eq (k : Int) : BitVec.ofInt 16 k = BitVec.ofNat 16 (k % 65536).toNat := by
  apply BitVec.eq_of_toNat_eq
  simp only [BitVec.toNat_ofInt, BitVec.toNat_ofNat]
  omega

/-- A non-negative number is its own byte. -/
theorem ofInt_8_of_nonneg {k : Int} (h : 0 ≤ k) : BitVec.ofInt 8 k = BitVec.ofNat 8 k.toNat := by
  obtain ⟨n, rfl⟩ := Int.eq_ofNat_of_zero_le h
  exact BitVec.ofInt_natCast 8 n

theorem asmImm_toNat (p : Word) : asmImm p.toNat = some p := by
  rw [asmImm_of_mem (by have := p.isLt; omega), BitVec.ofInt_natCast, BitVec.ofNat_toNat, BitVec.setWidth_eq]

theorem asmChar_toNat (c : Byte) : asmChar c.toNat = some c := by
  rw [asmChar_of_le (by have := c.isLt; omega), BitVec.ofNat_toNat, BitVec.setWidth_eq]

theorem asmPos_toNat (x : Byte) : asmPos x.toNat = some x := by
  rw [asmPos_of_mem (by have := x.isLt; omega), BitVec.ofInt_natCast, BitVec.ofNat_toNat, BitVec.setWidth_eq]

/-- A row whose last operand goes through `asmImm` takes a 16-bit immediate. -/
theorem takesImmediate_of_asmImm {statement : Int → Option Instr} {instr : Word → Instr}
    (h : ∀ k, statement k = (asmImm k).map instr) : TakesImmediate statement instr := by
  refine fun k => ⟨fun hl hu => ?_, fun hk => ?_⟩
  · rw [h, asmImm_of_mem ⟨hl, hu⟩, ofInt_16_eq, Option.map_some]
  · rw [h, asmImm_of_not_mem hk, Option.map_none]

/-! ## The rows of PRINT (R77) -/

theorem assemble_print_reg (a b : Reg) : assemble .print [.reg a, .reg b] = some (.printReg a b) := rfl

theorem assemble_print_regI (k : Int) (a : Reg) :
    assemble .print [.num k, .reg a] = (asmImm k).map (Instr.printRegI a) := rfl

theorem assemble_print_cns (b : Reg) (c : Nat) :
    assemble .print [.reg b, .chr c] = (asmChar c).map (Instr.printCns b) := rfl

theorem assemble_print_cnsI (k : Int) (c : Nat) :
    assemble .print [.num k, .chr c] = (asmPos k).bind fun x => (asmChar c).map (Instr.printCnsI x) := rfl

/-! ## What can assemble at all -/

theorem wellFormed_branchOf (c : Cond) (r : Reg) : (branchOf c r).wellFormed = true := by cases c <;> rfl

theorem wellFormed_branchImmOf (c : Cond) (imm : Word) : (branchImmOf c imm).wellFormed = true := by cases c <;> rfl

/-- The inversion lemma of `assemble`: every arm that answers stands in R76 with the kinds of its operands, and none answers
BRANCH or BRANCH_I with a listed condition. -/
theorem of_assemble {m : Mnemonic} {ops : List AsmOperand} :
    ∀ i, assemble m ops = some i → ops.map kindOf ∈ operandKinds m ∧ i.wellFormed = true := by
  unfold assemble
  split
  all_goals simp [kindOf, operandKinds, Option.bind_eq_some_iff, wellFormed_branchOf, wellFormed_branchImmOf]
  all_goals intros; subst_vars; rfl

theorem assemble_of_other_kinds {m : Mnemonic} {ops : List AsmOperand} (h : ops.map kindOf ∉ operandKinds m) :
    assemble m ops = none :=
  Option.eq_none_iff_forall_ne_some.mpr fun i hi => h (of_assemble i hi).1

/-- The word of a statement that assembles decodes to its instruction. -/
theorem decode_of_assemble {m : Mnemonic} {ops : List AsmOperand} {i : Instr} (h : assemble m ops = some i) :
    decode (encode i) = .ok i :=
  EncodingRules.decodeInvertsEncode i (of_assemble i h).2

/-! ## Operands by their kinds (R75) -/

theorem kindOf_eq_reg {x : AsmOperand} : kindOf x = .reg ↔ ∃ r, x = .reg r := by cases x <;> simp [kindOf]

theorem kindOf_eq_num {x : AsmOperand} : kindOf x = .num ↔ ∃ k, x = .num k := by cases x <;> simp [kindOf]

theorem kindOf_eq_chr {x : AsmOperand} : kindOf x = .chr ↔ ∃ c, x = .chr c := by cases x <;> simp [kindOf]

theorem map_kindOf_pair {ops : List AsmOperand} {p q : OperandKind} (h : ops.map kindOf = [p, q]) :
    ∃ x y, ops = [x, y] ∧ kindOf x = p ∧ kindOf y = q := by
  obtain ⟨x, rest, rfl, hx, hrest⟩ := List.map_eq_cons_iff.mp h
  obtain ⟨y, rfl, hy⟩ := List.map_eq_singleton_iff.mp hrest
  exact ⟨x, y, rfl, hx, hy⟩

/-- Settles O57: the four rows, each on operands that are in range, and the kinds of the operands of whatever else assembles. -/
theorem printFormsByOperandKinds : Obligations.PrintFormsByOperandKinds := by
  refine ⟨assemble_print_reg, fun p a => ?_, fun b c => ?_, fun p c => ?_, fun ops i h => ?_⟩
  · rw [assemble_print_regI, asmImm_toNat, Option.map_some]
  · rw [assemble_print_cns, asmChar_toNat, Option.map_some]
  · rw [assemble_print_cnsI, asmPos_toNat, asmChar_toNat, Option.bind_some, Option.map_some]
  · have hk := (of_assemble i h).1
    simp only [operandKinds, List.mem_cons, List.not_mem_nil, or_false] at hk
    rcases hk with hk | hk | hk | hk <;> obtain ⟨x, y, rfl, hx, hy⟩ := map_kindOf_pair hk
    · obtain ⟨a, rfl⟩ := kindOf_eq_reg.mp hx
      obtain ⟨b, rfl⟩ := kindOf_eq_reg.mp hy
      exact .inl ⟨a, b, rfl⟩
    · obtain ⟨k, rfl⟩ := kindOf_eq_num.mp hx
      obtain ⟨a, rfl⟩ := kindOf_eq_reg.mp hy
      exact .inr (.inl ⟨k, a, rfl⟩)
    · obtain ⟨b, rfl⟩ := kindOf_eq_reg.mp hx
      obtain ⟨c, rfl⟩ := kindOf_eq_chr.mp hy
      exact .inr (.inr (.inl ⟨b, c, rfl⟩))
    · obtain ⟨k, rfl⟩ := kindOf_eq_num.mp hx
      obtain ⟨c, rfl⟩ := kindOf_eq_chr.mp hy
      exact .inr (.inr (.inr ⟨k, c, rfl⟩))

/-! ## The rows of R76 and R78 -/

theorem assemble_threeOperands : ∀ p ∈ threeOperandRows, ∀ d a : Reg,
    (∀ b : Reg, assemble p.1 [.reg d, .reg a, .reg b] = some (p.2.1 d a b)) ∧
    ∀ k, assemble p.1 [.reg d, .reg a, .num k] = (asmImm k).map (p.2.2 d a) := by
  intro p hp d a
  fin_cases hp
  all_goals exact ⟨fun _ => rfl, fun _ => rfl⟩

theorem assemble_twoOperands : ∀ p ∈ twoOperandRows, ∀ x : Reg,
    (∀ y : Reg, assemble p.1 [.reg x, .reg y] = some (p.2.1 x y)) ∧
    ∀ k, assemble p.1 [.reg x, .num k] = (asmImm k).map (p.2.2 x) := by
  intro p hp x
  fin_cases hp
  all_goals exact ⟨fun _ => rfl, fun _ => rfl⟩

theorem assemble_branch : ∀ p ∈ branchRows,
    (∀ r : Reg, assemble (.branch p.1) [.reg r] = some (p.2.1 r)) ∧
    ∀ k, assemble (.branch p.1) [.num k] = (asmImm k).map p.2.2 := by
  intro p hp
  fin_cases hp
  all_goals exact ⟨fun _ => rfl, fun _ => rfl⟩

/-- There is no spelling for condition 0xF (R78). -/
theorem assemble_branch_reservedF (ops : List AsmOperand) : assemble (.branch .reservedF) ops = none := rfl

theorem assemble_print_cns_range (b : Reg) (c : Nat) :
    (c ≤ 255 → assemble .print [.reg b, .chr c] = some (.printCns b (BitVec.ofNat 8 c))) ∧
    (255 < c → assemble .print [.reg b, .chr c] = none) := by
  rw [assemble_print_cns]
  exact ⟨fun h => by rw [asmChar_of_le h, Option.map_some], fun h => by rw [asmChar_of_lt h, Option.map_none]⟩

theorem assemble_print_cnsI_range (k : Int) (c : Nat) :
    (0 ≤ k → k ≤ 255 → c ≤ 255 →
      assemble .print [.num k, .chr c] = some (.printCnsI (BitVec.ofNat 8 k.toNat) (BitVec.ofNat 8 c))) ∧
    (k < 0 ∨ 255 < k ∨ 255 < c → assemble .print [.num k, .chr c] = none) := by
  rw [assemble_print_cnsI]
  refine ⟨fun h0 hk hc => ?_, fun h => ?_⟩
  · rw [asmPos_of_mem ⟨h0, hk⟩, asmChar_of_le hc, ofInt_8_of_nonneg h0, Option.bind_some, Option.map_some]
  · rcases or_assoc.mpr h with hk | hc
    · rw [asmPos_of_not_mem hk, Option.bind_none]
    · simp [asmChar_of_lt hc]

/-- Settles O56: the rows one by one, then `assemble_of_other_kinds` and `decode_of_assemble` for every statement. -/
theorem assembledStatementsDecode : Obligations.AssembledStatementsDecode :=
  ⟨fun p hp d a => (assemble_threeOperands p hp d a).imp_right takesImmediate_of_asmImm,
    fun p hp x => (assemble_twoOperands p hp x).imp_right takesImmediate_of_asmImm,
    fun p hp => (assemble_branch p hp).imp_right takesImmediate_of_asmImm,
    assemble_branch_reservedF, fun _ => rfl, fun _ _ => ⟨rfl, rfl⟩, ⟨rfl, rfl⟩, assemble_print_reg,
    fun a => takesImmediate_of_asmImm fun k => assemble_print_regI k a,
    assemble_print_cns_range, assemble_print_cnsI_range, fun _ _ => assemble_of_other_kinds,
    fun _ _ _ => decode_of_assemble⟩

end Sys2Proof.AssemblerRules
end

section
/-! The Translator ROM's low six bits (30_encoding.md R81 to R83) beside the decoder: which opcodes have them, and what they say. -/

namespace Sys2Proof.RomRules

open Sys2Proof.Machine Sys2Proof.Claims Sys2Proof.EncodingRules Sys2Proof.StateRules

/-! ## The bits of a defined opcode (R83) -/

/-- `IMMEDIATE<<5 | TYPE<<1 | VALID`, with VALID = 1. -/
def packRom (immediate : Bool) (ty : RomType) : BitVec 6 :=
  (BitVec.ofBool immediate).setWidth 6 <<< 5 ||| ty.code.setWidth 6 <<< 1 ||| 1

theorem romLowBits_of_defined {o : Opcode} (h : o.reserved = false) :
    romLowBits o = some (packRom (immediateVariant o) (romTypeOf o)) := by
  simp [romLowBits, packRom, h]

theorem romLowBits_of_reserved {o : Opcode} (h : o.reserved = true) : romLowBits o = none := by
  simp [romLowBits, h]

section
variable (immediate : Bool) (ty : RomType)

theorem romValid_packRom : romValid ((packRom immediate ty).setWidth 16) = true := by
  cases immediate <;> cases ty <;> rfl

theorem romTypeCode_packRom : romTypeCode ((packRom immediate ty).setWidth 16) = ty.code := by
  cases immediate <;> cases ty <;> rfl

theorem romImmediate_packRom : romImmediate ((packRom immediate ty).setWidth 16) = immediate := by
  cases immediate <;> cases ty <;> rfl

end

theorem romType_ofCode_code (ty : RomType) : RomType.ofCode ty.code = some ty := by cases ty <;> rfl

theorem romTypeOf_listed (o : Opcode) : romTypeOf o ≠ .fpu ∧ romTypeOf o ≠ .service := by cases o <;> decide

theorem immediateVariant_eq (o : Opcode) : immediateVariant o = decide (o.format = .i ∨ o.format = .ji) := by
  unfold immediateVariant
  cases o.format <;> rfl

/-! ## The bits of an opcode byte -/

theorem romBitsOf_byte (o : Opcode) : romBitsOf o.byte = romLowBits o := by
  rw [romBitsOf, Opcode.ofByte_byte, Option.bind_some]

/-- An opcode byte has bits exactly if it is that of a defined opcode. -/
theorem romBitsOf_eq_some_iff (op : Byte) (x : BitVec 6) :
    romBitsOf op = some x ↔
      ∃ o : Opcode, o.byte = op ∧ o.reserved = false ∧ x = packRom (immediateVariant o) (romTypeOf o) := by
  constructor
  · intro h
    obtain ⟨o, ho, hx⟩ := Option.bind_eq_some_iff.mp h
    refine ⟨o, Opcode.byte_of_ofByte ho, ?_⟩
    cases hr : o.reserved with
    | true => cases (romLowBits_of_reserved hr).symm.trans hx
    | false => exact ⟨rfl, Option.some.inj (hx.symm.trans (romLowBits_of_defined hr))⟩
  · rintro ⟨o, rfl, hr, rfl⟩
    rw [romBitsOf_byte, romLowBits_of_defined hr]

theorem romBitsOf_eq_none_iff (op : Byte) : romBitsOf op = none ↔ ∀ o : Opcode, o.byte = op → o.reserved = true := by
  constructor
  · rintro h o rfl
    by_contra hr
    cases (romLowBits_of_defined (eq_false_of_ne_true hr)).symm.trans ((romBitsOf_byte o).symm.trans h)
  · intro h
    by_contra hs
    obtain ⟨x, hx⟩ := Option.ne_none_iff_exists'.mp hs
    obtain ⟨o, ho, hr, -⟩ := (romBitsOf_eq_some_iff op x).mp hx
    cases hr.symm.trans (h o ho)

/-! ## The table of R83 -/

/-- Every opcode byte of a row, counted from the row's first, has the row's bits. -/
theorem romBitsOf_of_row : ∀ p ∈ romTable, ∀ k ≤ (p.2.1 - p.1).toNat, romBitsOf (p.1 + BitVec.ofNat 8 k) = some p.2.2 := by
  intro p hp
  fin_cases hp
  all_goals decide

theorem exists_row_of_defined (o : Opcode) (h : o.reserved = false) : ∃ p ∈ romTable, p.1 ≤ o.byte ∧ o.byte ≤ p.2.1 := by
  cases o with
  | aluNul0E | aluNul0F | aluNul0EI | aluNul0FI => cases h
  | _ => decide

theorem romBitsOf_of_mem_row {p : Byte × Byte × BitVec 6} (hp : p ∈ romTable) {op : Byte} (hl : p.1 ≤ op)
    (hu : op ≤ p.2.1) : romBitsOf op = some p.2.2 := by
  have h := romBitsOf_of_row p hp (op - p.1).toNat (by bv_omega)
  rwa [BitVec.ofNat_toNat, BitVec.setWidth_eq, add_sub_cancel] at h

/-! ## The step and the opcodes without bits (60_exceptions.md R166) -/

theorem branchTo_ne_illegal (c : Cond) (target : Word) (s : State) :
    branchTo c target s ≠ .fault (.illegalInstruction s.pc s.fetch) := by
  rcases branchTo_cases c target s with ⟨-, h⟩ | ⟨-, h⟩ | ⟨-, h⟩ <;> rw [h] <;> nofun

theorem loadWord_ne_illegal (d : Reg) (ea : Word) (s : State) :
    loadWord d ea s ≠ .fault (.illegalInstruction s.pc s.fetch) := by
  rcases loadWord_cases d ea s with ⟨-, h⟩ | ⟨-, h⟩ <;> rw [h] <;> nofun

theorem storeWord_ne_illegal (ea v : Word) (s : State) :
    storeWord ea v s ≠ .fault (.illegalInstruction s.pc s.fetch) := by
  rcases storeWord_cases ea v s with ⟨-, h⟩ | ⟨-, h⟩ <;> rw [h] <;> nofun

theorem printCell_ne_illegal (pos : Word) (kind : ScnKind) (v : Word) (s : State) :
    printCell pos kind v s ≠ .fault (.illegalInstruction s.pc s.fetch) := by
  rw [printCell_eq]; nofun

/-- Among the named opcodes only the four reserved ones raise IllegalInstruction (R71). -/
theorem exec_eq_illegal_iff (o : Opcode) (w : InstrWord) (s : State) :
    exec (o.instr w) s = .fault (.illegalInstruction s.pc s.fetch) ↔ o.reserved = true := by
  cases o with
  | aluNul0E | aluNul0F | aluNul0EI | aluNul0FI => exact iff_of_true rfl rfl
  | branch =>
    rw [Opcode.instr, exec_branchOf]
    exact iff_of_false (branchTo_ne_illegal _ _ _) nofun
  | branchI =>
    rw [Opcode.instr, exec_branchImmOf]
    exact iff_of_false (branchTo_ne_illegal _ _ _) nofun
  | read | readI => exact iff_of_false (loadWord_ne_illegal _ _ _) nofun
  | write | writeI => exact iff_of_false (storeWord_ne_illegal _ _ _) nofun
  | printReg | printRegI | printCns | printCnsI => exact iff_of_false (printCell_ne_illegal _ _ _ _) nofun
  | _ => exact iff_of_false nofun nofun

/-- The step raises IllegalInstruction exactly on a word whose opcode is not that of a defined instruction. -/
theorem step_eq_illegal_iff (s : State) :
    step s = .fault (.illegalInstruction s.pc s.fetch) ↔ ∀ o : Opcode, o.byte = opcodeByte s.fetch → o.reserved = true := by
  cases ho : Opcode.ofByte (opcodeByte s.fetch) with
  | none =>
    refine iff_of_true (step_of_decode_error ((decode_eq_illegal_iff _).mpr ho)) fun o hw => ?_
    cases ho.symm.trans ((Opcode.ofByte_eq_some_iff _ o).mpr hw)
  | some o =>
    have hw := Opcode.byte_of_ofByte ho
    have only : (∀ p : Opcode, p.byte = opcodeByte s.fetch → p.reserved = true) ↔ o.reserved = true :=
      ⟨fun h => h o hw, fun h p hp => byte_injective (hp.trans hw.symm) ▸ h⟩
    rw [only, ← exec_eq_illegal_iff o s.fetch s]
    have hd := decode_of_opcode hw
    cases hp : padFault Config.padMode o s.fetch with
    | false => rw [step_of_decode_ok (by simpa [hp] using hd)]
    | true =>
      rw [step_of_decode_error (by simpa [hp] using hd), exec_eq_illegal_iff]
      exact iff_of_false nofun fun hr => by simp [padFault, hr] at hp

/-- Settles O58: the bits of a byte are those packed for its opcode (`romBitsOf_eq_some_iff`), and an opcode has none exactly if it
is unassigned or reserved, on the ROM's side and the step's. -/
theorem romLowBitsAgreeWithDecoder : Obligations.RomLowBitsAgreeWithDecoder := by
  refine ⟨fun p hp op => romBitsOf_of_mem_row hp, fun op h => ?_, fun op x h => ?_, fun s => ?_, fun w i x hd hx => ?_⟩
  · rw [romBitsOf_eq_none_iff]
    rintro o rfl
    by_contra hr
    obtain ⟨p, hp, hin⟩ := exists_row_of_defined o (eq_false_of_ne_true hr)
    exact h p hp hin
  · obtain ⟨o, -, -, rfl⟩ := (romBitsOf_eq_some_iff op x).mp h
    refine ⟨romValid_packRom _ _, romTypeOf o, ?_, romTypeOf_listed o⟩
    rw [romTypeCode_packRom, romType_ofCode_code]
  · rw [romBitsOf_eq_none_iff, step_eq_illegal_iff]
  · obtain ⟨o, hw, -, rfl⟩ := (decode_eq_ok_iff w i).mp hd
    obtain ⟨q, hq, -, rfl⟩ := (romBitsOf_eq_some_iff _ x).mp hx
    obtain rfl : q = o := byte_injective (hq.trans hw.symm)
    rw [romImmediate_packRom, opcode_instr, immediateVariant_eq]

end Sys2Proof.RomRules
end

section
/-! What the results of 40_alu_register.md and 41_alu_immediate.md share: the words of formats R and I with their pad fault, and
the frame of an instruction that is `writeResult`. -/

namespace Sys2Proof.ResultRules

open Sys2Proof.Machine Sys2Proof.Claims Sys2Proof.StateRules Sys2Proof.EncodingRules

/-! ## Formats R and I (30_encoding.md R56, R57, R62, R63) -/

theorem ignoresUnused (op : Byte) : IgnoresUnused op :=
  fun p hp heq w hw => unusedBitsAreIgnored.1 p hp w (hw.trans heq.symm)

/-- A set pad bit stops the step of a defined opcode. -/
theorem step_of_pad {o : Opcode} (defined : o.reserved = false) {s : State} (hop : opcodeByte s.fetch = o.byte)
    (hpad : s.fetch &&& o.format.padMask ≠ 0) : step s = .fault (.reservedEncoding s.pc s.fetch) :=
  step_of_decode_error ((decode_eq_reservedEncoding_iff s.fetch).mpr ⟨o, hop.symm, defined, hpad⟩)

theorem formatR_of_encode {i : Instr} (o : Opcode) (d a b : BitVec 3) (format : o.format = .r) (defined : o.reserved = false)
    (he : encode i = packR o d a b 0) : FormatR o.byte i d.toNat a.toNat b.toNat := by
  refine ⟨?_, ignoresUnused o.byte, fun s hop hpad => step_of_pad defined hop (by rwa [format])⟩
  simp [he, packR_toNat]

theorem formatI_of_encode {i : Instr} (o : Opcode) (d a : BitVec 3) (imm : Word) (format : o.format = .i)
    (defined : o.reserved = false) (he : encode i = packI o d a imm) : FormatI o.byte i d.toNat a.toNat imm.toNat := by
  refine ⟨?_, ignoresUnused o.byte, fun s hop hpad => step_of_pad defined hop (by rwa [format])⟩
  rw [he, packI_toNat]

/-! ## One register written (R84, R85) -/

/-- The frame of an ALU instruction, once for all of them: `f` is the model's result and `value` the rule's. -/
theorem givesRegister_of_writeResult {i : Instr} {d : Reg} {f value : State → Word}
    (hexec : ∀ s, exec i s = writeResult d (f s) s) (hvalue : ∀ s, f s = value s) : GivesRegister i d value := by
  intro s
  refine ⟨(s.setReg d (value s)).advance, ?_, ?_, fun r hr => ?_, pcStepped_of_pc_eq rfl, rfl, fun _ => rfl,
    ⟨fun _ => rfl, rfl⟩, fun _ => rfl⟩
  · rw [hexec, hvalue, writeResult_eq]
  · simp
  · simp [hr]

end Sys2Proof.ResultRules
end

section
/-! The ALU instructions (40_alu_register.md, 41_alu_immediate.md): each result function as the arithmetic of its rule, and from
that, for both formats at once, what the instruction gives. -/

namespace Sys2Proof.AluRules

open Sys2Proof.Machine Sys2Proof.Claims Sys2Proof.ResultRules

/-! ## Bitwise, addition and subtraction (R88 to R93) -/

theorem notWord_eq (a : Word) : notWord a = BitVec.ofNat 16 (0xFFFF - a.toNat) := by
  apply BitVec.eq_of_toNat_eq
  rw [notWord, BitVec.toNat_not, BitVec.toNat_ofNat]
  omega

theorem getLsbD_notWord (a : Word) {j : Nat} (h : j < 16) : (notWord a).getLsbD j = !a.getLsbD j := by
  simp [notWord, h]

theorem addWord_eq (a b : Word) : addWord a b = BitVec.ofNat 16 (a.toNat + b.toNat) :=
  BitVec.eq_of_toNat_eq (by rw [addWord, BitVec.toNat_add, BitVec.toNat_ofNat])

theorem subWord_eq (a b : Word) : subWord a b = BitVec.ofNat 16 (((a.toNat : Int) - (b.toNat : Int)) % 65536).toNat := by
  apply BitVec.eq_of_toNat_eq
  rw [subWord, BitVec.toNat_sub, BitVec.toNat_ofNat]
  omega

/-! ## Shifts (R94 to R96) -/

/-- The two modes of R94 read the same amount below 16. -/
theorem shiftAmount_mod16_of_lt {b : Word} (h : b.toNat < 16) : shiftAmount .mod16 b = shiftAmount .full b :=
  Nat.mod_eq_of_lt h

theorem lslWord_eq (mode : ShiftMode) (a b : Word) :
    lslWord mode a b =
      if 16 ≤ shiftAmount mode b then 0 else BitVec.ofNat 16 (a.toNat * 2 ^ shiftAmount mode b) := by
  unfold lslWord
  by_cases h : shiftAmount mode b < 16
  · rw [if_pos h, if_neg (by omega)]
    apply BitVec.eq_of_toNat_eq
    rw [BitVec.toNat_shiftLeft, BitVec.toNat_ofNat, Nat.shiftLeft_eq]
  · rw [if_neg h, if_pos (by omega)]

theorem lsrWord_eq (mode : ShiftMode) (a b : Word) :
    lsrWord mode a b =
      if 16 ≤ shiftAmount mode b then 0 else BitVec.ofNat 16 (a.toNat / 2 ^ shiftAmount mode b) := by
  unfold lsrWord
  by_cases h : shiftAmount mode b < 16
  · rw [if_pos h, if_neg (by omega)]
    apply BitVec.eq_of_toNat_eq
    have small : a.toNat / 2 ^ shiftAmount mode b < 2 ^ 16 := (Nat.div_le_self _ _).trans_lt a.isLt
    rw [BitVec.toNat_ushiftRight, BitVec.toNat_ofNat, Nat.shiftRight_eq_div_pow, Nat.mod_eq_of_lt small]
  · rw [if_neg h, if_pos (by omega)]

/-! ## Binary to BCD (R97) -/

theorem digit_le (k : Nat) (a : Word) : digit k a ≤ 9 := by
  unfold digit
  omega

theorem bcdDigit_toNat (k : Nat) (a : Word) : (bcdDigit k a).toNat = digit k a := by
  have le := digit_le k a
  rw [bcdDigit, BitVec.toNat_ofNat, ← digit]
  omega

/-- Four nibbles, packed, do not overlap. -/
theorem nibbles_toNat (p q r t : BitVec 4) :
    (p.setWidth 16 <<< 12 ||| q.setWidth 16 <<< 8 ||| r.setWidth 16 <<< 4 ||| t.setWidth 16).toNat =
      p.toNat * 4096 + q.toNat * 256 + r.toNat * 16 + t.toNat := by
  rw [← BitVec.add_eq_or_of_and_eq_zero, ← BitVec.add_eq_or_of_and_eq_zero, ← BitVec.add_eq_or_of_and_eq_zero]
  · bv_omega
  all_goals
    apply bits_ext
    intro i hi
    simp only [BitVec.getLsbD_and, BitVec.getLsbD_or, BitVec.getLsbD_shiftLeft, BitVec.getLsbD_setWidth]
    interval_cases i <;> simp

theorem bcdLow_toNat (a : Word) :
    (bcdLow a).toNat = digit 3 a * 4096 + digit 2 a * 256 + digit 1 a * 16 + digit 0 a := by
  simp only [bcdLow, nibbles_toNat, bcdDigit_toNat]

theorem bcdHigh_toNat (a : Word) : (bcdHigh a).toNat = digit 4 a := by
  have le := digit_le 4 a
  rw [bcdHigh, BitVec.toNat_setWidth, bcdDigit_toNat]
  omega

theorem bcdLow_eq (a : Word) :
    bcdLow a = BitVec.ofNat 16 (digit 3 a * 4096 + digit 2 a * 256 + digit 1 a * 16 + digit 0 a) := by
  rw [← bcdLow_toNat, BitVec.ofNat_toNat, BitVec.setWidth_eq]

/-- A 16-bit value has five decimal digits, so nothing stands above the fifth. -/
theorem digit_four (a : Word) : digit 4 a = a.toNat / 10000 := by
  unfold digit
  omega

theorem bcdHigh_eq (a : Word) : bcdHigh a = BitVec.ofNat 16 (a.toNat / 10000) := by
  rw [← digit_four, ← bcdHigh_toNat, BitVec.ofNat_toNat, BitVec.setWidth_eq]

theorem digits_sum (a : Word) :
    a.toNat = digit 4 a * 10000 + digit 3 a * 1000 + digit 2 a * 100 + digit 1 a * 10 + digit 0 a := by
  unfold digit
  omega

/-! ## Halves of a product (R100) -/

theorem lowHalf_toNat (p : BitVec 32) : (lowHalf p).toNat = p.toNat % 65536 := by
  simp [lowHalf]

theorem highHalf_toNat (p : BitVec 32) : (highHalf p).toNat = p.toNat / 65536 := by
  rw [highHalf, BitVec.extractLsb'_toNat, Nat.shiftRight_eq_div_pow]
  omega

theorem halves_toNat (p : BitVec 32) : (highHalf p).toNat * 65536 + (lowHalf p).toNat = p.toNat := by
  rw [highHalf_toNat, lowHalf_toNat]
  omega

/-- Read as signed, the upper half carries the sign. -/
theorem halves_toInt (p : BitVec 32) : (highHalf p).toInt * 65536 + ((lowHalf p).toNat : Int) = p.toInt := by
  rw [BitVec.toInt_eq_toNat_cond, BitVec.toInt_eq_toNat_cond, highHalf_toNat, lowHalf_toNat]
  omega

theorem lowHalf_ofInt (k : Int) : lowHalf (BitVec.ofInt 32 k) = BitVec.ofInt 16 k := by
  apply BitVec.eq_of_toNat_eq
  rw [lowHalf_toNat, BitVec.toNat_ofInt, BitVec.toNat_ofInt]
  omega

/-- `P[31:16]` is the floor of the product over 2^16. -/
theorem highHalf_ofInt (k : Int) : highHalf (BitVec.ofInt 32 k) = BitVec.ofInt 16 (k / 65536) := by
  apply BitVec.eq_of_toNat_eq
  rw [highHalf_toNat, BitVec.toNat_ofInt, BitVec.toNat_ofInt]
  omega

theorem lowHalf_ofNat (n : Nat) : lowHalf (BitVec.ofNat 32 n) = BitVec.ofNat 16 n := by
  rw [← BitVec.ofInt_natCast, lowHalf_ofInt, BitVec.ofInt_natCast]

theorem highHalf_ofNat (n : Nat) : highHalf (BitVec.ofNat 32 n) = BitVec.ofNat 16 (n / 65536) := by
  rw [← BitVec.ofInt_natCast, highHalf_ofInt, ← BitVec.ofInt_natCast, Int.natCast_ediv, Nat.cast_ofNat]

/-- The unsigned product fits in 32 bits. -/
theorem umulProduct_toNat (a b : Word) : (umulProduct a b).toNat = a.toNat * b.toNat := by
  have small : a.toNat * b.toNat < 2 ^ 16 * 2 ^ 16 := Nat.mul_lt_mul'' a.isLt b.isLt
  rw [← Nat.pow_add] at small
  rw [umulProduct, BitVec.toNat_ofNat, Nat.mod_eq_of_lt small]

/-- The signed product fits in 32 bits. -/
theorem mulProduct_toInt (a b : Word) : (mulProduct a b).toInt = a.toInt * b.toInt := by
  have small : |a.toInt * b.toInt| ≤ 2 ^ 15 * 2 ^ 15 := by
    rw [abs_mul]
    have ha : |a.toInt| ≤ 2 ^ 15 := abs_le.mpr ⟨a.le_toInt, a.toInt_lt.le⟩
    have hb : |b.toInt| ≤ 2 ^ 15 := abs_le.mpr ⟨b.le_toInt, b.toInt_lt.le⟩
    exact mul_le_mul ha hb (abs_nonneg _) (by decide)
  obtain ⟨lower, upper⟩ := abs_le.mp small
  rw [mulProduct, BitVec.toInt_ofInt, Int.bmod_eq_of_le (by omega) (by omega)]

/-- Both low halves are the product of the words (R100). -/
theorem lowHalf_umulProduct (a b : Word) : lowHalf (umulProduct a b) = a * b := by
  rw [umulProduct, lowHalf_ofNat, BitVec.ofNat_mul, BitVec.ofNat_toNat, BitVec.ofNat_toNat, BitVec.setWidth_eq,
    BitVec.setWidth_eq]

theorem lowHalf_mulProduct (a b : Word) : lowHalf (mulProduct a b) = a * b := by
  rw [mulProduct, lowHalf_ofInt, BitVec.ofInt_mul, BitVec.ofInt_toInt, BitVec.ofInt_toInt]

/-- With bit 15 clear in both operands the signed values are the unsigned ones. -/
theorem mulProduct_eq_umulProduct {a b : Word} (ha : a.msb = false) (hb : b.msb = false) :
    mulProduct a b = umulProduct a b := by
  rw [mulProduct, umulProduct, BitVec.toInt_eq_toNat_of_msb ha, BitVec.toInt_eq_toNat_of_msb hb, ← Int.natCast_mul,
    BitVec.ofInt_natCast]

/-! ## The statements -/

/-- Settles O28: `notWord_eq` in both formats, and bit by bit `getLsbD_notWord`. -/
theorem notResults : Obligations.NotResults := by
  intro d a
  refine ⟨formatR_of_encode .aluNot d.num a.num 0 rfl rfl rfl,
    givesRegister_of_writeResult (fun _ => rfl) fun _ => notWord_eq _,
    formatI_of_encode .aluNotI d.num a.num 0 rfl rfl rfl,
    givesRegister_of_writeResult (fun _ => rfl) fun _ => notWord_eq _,
    fun s t h j hj => ?_⟩
  cases h
  rw [State.advance_reg, State.setReg_reg, if_pos rfl, getLsbD_notWord _ hj]

/-- Settles O29, by `addWord_eq`. -/
theorem addResults : Obligations.AddResults := fun d a b imm =>
  ⟨formatR_of_encode .aluAdd d.num a.num b.num rfl rfl rfl, givesRegister_of_writeResult (fun _ => rfl) fun _ => addWord_eq _ _,
    formatI_of_encode .aluAddI d.num a.num imm rfl rfl rfl, givesRegister_of_writeResult (fun _ => rfl) fun _ => addWord_eq _ _⟩

/-- Settles O30, by `subWord_eq`. -/
theorem subResults : Obligations.SubResults := fun d a b imm =>
  ⟨formatR_of_encode .aluSub d.num a.num b.num rfl rfl rfl, givesRegister_of_writeResult (fun _ => rfl) fun _ => subWord_eq _ _,
    formatI_of_encode .aluSubI d.num a.num imm rfl rfl rfl, givesRegister_of_writeResult (fun _ => rfl) fun _ => subWord_eq _ _⟩

/-- Settles O31, by `lslWord_eq`; in mode full the amount is the whole operand. -/
theorem lslResults : Obligations.LslResults := fun d a b imm =>
  ⟨formatR_of_encode .aluLsl d.num a.num b.num rfl rfl rfl,
    givesRegister_of_writeResult (fun _ => rfl) fun _ => lslWord_eq .full _ _,
    formatI_of_encode .aluLslI d.num a.num imm rfl rfl rfl,
    givesRegister_of_writeResult (fun _ => rfl) fun _ => lslWord_eq .full _ _⟩

/-- Settles O32, by `lsrWord_eq`; in mode full the amount is the whole operand. -/
theorem lsrResults : Obligations.LsrResults := fun d a b imm =>
  ⟨formatR_of_encode .aluLsr d.num a.num b.num rfl rfl rfl,
    givesRegister_of_writeResult (fun _ => rfl) fun _ => lsrWord_eq .full _ _,
    formatI_of_encode .aluLsrI d.num a.num imm rfl rfl rfl,
    givesRegister_of_writeResult (fun _ => rfl) fun _ => lsrWord_eq .full _ _⟩

/-- Settles O34, by `bcdLow_eq`. -/
theorem bcdlResults : Obligations.BcdlResults := fun d a =>
  ⟨formatR_of_encode .aluBcdl d.num a.num 0 rfl rfl rfl, givesRegister_of_writeResult (fun _ => rfl) fun _ => bcdLow_eq _,
    formatI_of_encode .aluBcdlI d.num a.num 0 rfl rfl rfl, givesRegister_of_writeResult (fun _ => rfl) fun _ => bcdLow_eq _⟩

/-- Settles O35, by `bcdHigh_eq`. -/
theorem bcdhResults : Obligations.BcdhResults := fun d a =>
  ⟨formatR_of_encode .aluBcdh d.num a.num 0 rfl rfl rfl, givesRegister_of_writeResult (fun _ => rfl) fun _ => bcdHigh_eq _,
    formatI_of_encode .aluBcdhI d.num a.num 0 rfl rfl rfl, givesRegister_of_writeResult (fun _ => rfl) fun _ => bcdHigh_eq _⟩

/-- Settles O36: `bcdLow_toNat` writes BCD_LOW in base 16 with digits at most 9, so each nibble is one of them. -/
theorem bcdDigitsGiveTheValueBack : Obligations.BcdDigitsGiveTheValueBack := by
  intro a
  have packed := bcdLow_toNat a
  have le0 := digit_le 0 a
  have le1 := digit_le 1 a
  have le2 := digit_le 2 a
  have le3 := digit_le 3 a
  have le4 : digit 4 a ≤ 6 := by rw [digit_four]; omega
  refine ⟨?_, ?_, ?_, ?_, bcdHigh_toNat a, le0, le1, le2, le3, le4, digits_sum a⟩
  all_goals
    rw [BitVec.extractLsb'_toNat, Nat.shiftRight_eq_div_pow]
    omega

/-- Settles O37, by `lowHalf_ofNat` and `highHalf_ofNat` at the product. -/
theorem unsignedMultiplyResults : Obligations.UnsignedMultiplyResults := fun d a b imm =>
  ⟨formatR_of_encode .aluUmulL d.num a.num b.num rfl rfl rfl,
    givesRegister_of_writeResult (fun _ => rfl) fun _ => lowHalf_ofNat _,
    formatI_of_encode .aluUmulLI d.num a.num imm rfl rfl rfl,
    givesRegister_of_writeResult (fun _ => rfl) fun _ => lowHalf_ofNat _,
    formatR_of_encode .aluUmulH d.num a.num b.num rfl rfl rfl,
    givesRegister_of_writeResult (fun _ => rfl) fun _ => highHalf_ofNat _,
    formatI_of_encode .aluUmulHI d.num a.num imm rfl rfl rfl,
    givesRegister_of_writeResult (fun _ => rfl) fun _ => highHalf_ofNat _⟩

/-- Settles O38, by `lowHalf_ofInt` and `highHalf_ofInt` at the product. -/
theorem signedMultiplyResults : Obligations.SignedMultiplyResults := fun d a b imm =>
  ⟨formatR_of_encode .aluMulL d.num a.num b.num rfl rfl rfl,
    givesRegister_of_writeResult (fun _ => rfl) fun _ => lowHalf_ofInt _,
    formatI_of_encode .aluMulLI d.num a.num imm rfl rfl rfl,
    givesRegister_of_writeResult (fun _ => rfl) fun _ => lowHalf_ofInt _,
    formatR_of_encode .aluMulH d.num a.num b.num rfl rfl rfl,
    givesRegister_of_writeResult (fun _ => rfl) fun _ => highHalf_ofInt _,
    formatI_of_encode .aluMulHI d.num a.num imm rfl rfl rfl,
    givesRegister_of_writeResult (fun _ => rfl) fun _ => highHalf_ofInt _⟩

/-- Settles O39: the halves of any 32-bit word make it up, read either way, and both products fit in 32 bits. -/
theorem productHalvesMakeTheProduct : Obligations.ProductHalvesMakeTheProduct := fun a b =>
  ⟨(halves_toNat _).trans (umulProduct_toNat a b), (halves_toInt _).trans (mulProduct_toInt a b),
    (lowHalf_mulProduct a b).trans (lowHalf_umulProduct a b).symm,
    fun ha hb => congrArg highHalf (mulProduct_eq_umulProduct ha hb)⟩

/-- Settles O27: the model's results are the rule's as they stand. -/
theorem bitwiseResults : Obligations.BitwiseResults := fun d a b imm =>
  ⟨formatR_of_encode .aluAnd d.num a.num b.num rfl rfl rfl, givesRegister_of_writeResult (fun _ => rfl) fun _ => rfl,
    formatI_of_encode .aluAndI d.num a.num imm rfl rfl rfl, givesRegister_of_writeResult (fun _ => rfl) fun _ => rfl,
    formatR_of_encode .aluOr d.num a.num b.num rfl rfl rfl, givesRegister_of_writeResult (fun _ => rfl) fun _ => rfl,
    formatI_of_encode .aluOrI d.num a.num imm rfl rfl rfl, givesRegister_of_writeResult (fun _ => rfl) fun _ => rfl,
    formatR_of_encode .aluXor d.num a.num b.num rfl rfl rfl, givesRegister_of_writeResult (fun _ => rfl) fun _ => rfl,
    formatI_of_encode .aluXorI d.num a.num imm rfl rfl rfl, givesRegister_of_writeResult (fun _ => rfl) fun _ => rfl⟩

/-- Settles O33: below 16 the two modes read one amount, and of 16 mode mod16 reads 0. -/
theorem shiftModesAgreeBelowSixteen : Obligations.ShiftModesAgreeBelowSixteen := by
  intro a b
  refine ⟨fun h => ?_, rfl, rfl, ?_, ?_⟩
  · simp only [lslWord, lsrWord, shiftAmount_mod16_of_lt h, and_self]
  · show a <<< 0 = a
    exact BitVec.shiftLeft_zero a
  · show a >>> 0 = a
    exact BitVec.ushiftRight_zero a

/-- Settles O40: the meaning of the four is `raise`, and every field of their words is 0. -/
theorem reservedAluSlotsFault : Obligations.ReservedAluSlotsFault :=
  fun _ => ⟨rfl, rfl, rfl, rfl, by decide, by decide, by decide, by decide⟩

end Sys2Proof.AluRules
end

section
/-! The two moves (42_move.md R125 to R127): MOVE writes the register its B field selects, MOVE_I its immediate. -/

namespace Sys2Proof.MoveRules

open Sys2Proof.Machine Sys2Proof.Claims Sys2Proof.ResultRules

/-- With MOVE_SRC_FIELD = B (R125) the source stands in the B field of MOVE, and its A field is unused and 0. -/
theorem encode_move (d b : Reg) : encode (.move d b) = packR .move d.num 0 b.num 0 := rfl

theorem exec_move (d b : Reg) (s : State) : exec (.move d b) s = writeResult d (s.reg b) s := rfl

theorem exec_moveI (d : Reg) (imm : Word) (s : State) : exec (.moveI d imm) s = writeResult d imm s := rfl

/-- Settles O41: both moves are `writeResult`, so the frame of one register written is theirs, with the value as it stands. -/
theorem moveResults : Obligations.MoveResults := fun d b imm =>
  ⟨formatR_of_encode .move d.num 0 b.num rfl rfl (encode_move d b),
    givesRegister_of_writeResult (exec_move d b) fun _ => rfl,
    formatI_of_encode .moveI d.num 0 imm rfl rfl rfl,
    givesRegister_of_writeResult (exec_moveI d imm) fun _ => rfl⟩

end Sys2Proof.MoveRules
end

section
/-! The comparisons (43_compare_branch.md R128 to R130, R149): the four flags as arithmetic on the operands, and what the
conditions say of the operands once those flags are set. -/

namespace Sys2Proof.CompareRules

open Sys2Proof.Machine Sys2Proof.Claims Sys2Proof.StateRules Sys2Proof.ResultRules

/-! ## The sum of a comparison (R128) -/

/-- Two 16-bit operands and 1 fit in 17 bits, so the sum is exact. -/
theorem cmpSum_toNat (a b : Word) : (cmpSum a b).toNat = a.toNat + (~~~b).toNat + 1 := by
  have ha := a.isLt
  have hb := (~~~b).isLt
  simp only [cmpSum, BitVec.toNat_add, BitVec.toNat_setWidth, BitVec.ofNat_eq_ofNat, BitVec.toNat_ofNat]
  omega

/-- The low 16 bits of a + ~b + 1 are the difference. -/
theorem cmpSum_low (a b : Word) : (cmpSum a b).setWidth 16 = a - b := by
  have hb := b.isLt
  apply BitVec.eq_of_toNat_eq
  rw [BitVec.toNat_setWidth, cmpSum_toNat, BitVec.toNat_not, BitVec.toNat_sub]
  omega

theorem sub_toNat_eq_sum (a b : Word) : (a - b).toNat = (a.toNat + (~~~b).toNat + 1) % 65536 := by
  rw [← cmpSum_low, BitVec.toNat_setWidth, cmpSum_toNat]

/-! ## The four flags -/

@[simp] theorem cmpFlags_z (a b : Word) : (cmpFlags a b).z = decide (a = b) := by
  simp only [cmpFlags, cmpSum_low, beq_eq_decide, sub_eq_zero]

@[simp] theorem cmpFlags_n (a b : Word) : (cmpFlags a b).n = (a - b).msb := by
  simp only [cmpFlags, cmpSum_low]

theorem cmpFlags_c_eq_sum (a b : Word) : (cmpFlags a b).c = decide (65536 ≤ a.toNat + (~~~b).toNat + 1) := by
  simp only [cmpFlags, BitVec.msb_eq_decide, cmpSum_toNat, Nat.reducePow, Nat.reduceSub]

@[simp] theorem cmpFlags_c (a b : Word) : (cmpFlags a b).c = decide (b.toNat ≤ a.toNat) := by
  have hb := b.isLt
  rw [cmpFlags_c_eq_sum, BitVec.toNat_not, decide_eq_decide]
  omega

theorem cmpFlags_v_eq_signs (a b : Word) : (cmpFlags a b).v = (a.msb != b.msb && (a - b).msb != a.msb) := by
  simp only [cmpFlags, cmpSum_low]

/-- The sign rule for V is signed overflow of the subtraction. -/
@[simp] theorem cmpFlags_v (a b : Word) : (cmpFlags a b).v = a.ssubOverflow b := by
  rw [cmpFlags_v_eq_signs, BitVec.ssubOverflow_eq]
  cases a.msb <;> cases b.msb <;> simp

theorem ssubOverflow_word (a b : Word) :
    a.ssubOverflow b = decide (a.toInt - b.toInt < -32768 ∨ 32767 < a.toInt - b.toInt) := by
  rw [BitVec.ssubOverflow, ← Bool.decide_or, decide_eq_decide]
  omega

/-! ## The signed order (R149) -/

theorem ssubOverflow_of_same_sign {a b : Word} (h : a.msb = b.msb) : a.ssubOverflow b = false := by
  rw [BitVec.ssubOverflow_eq, h]
  cases b.msb <;> rfl

/-- Without overflow the difference is exact, so its sign is the signed order. -/
theorem sub_msb_of_not_overflow {a b : Word} (h : a.ssubOverflow b = false) :
    (a - b).msb = decide (a.toInt < b.toInt) := by
  rw [BitVec.msb_eq_toInt, BitVec.toInt_sub_of_not_ssubOverflow (by simp [h]), decide_eq_decide]
  omega

/-- Between words of different sign, the negative one is the lesser. -/
theorem toInt_lt_of_signs_ne {a b : Word} (h : a.msb ≠ b.msb) : decide (a.toInt < b.toInt) = a.msb := by
  simp only [BitVec.msb_eq_toInt, ne_eq, decide_eq_decide] at h ⊢
  omega

/-- With overflow the signs differ and the difference has that of `b`. -/
theorem sub_msb_of_overflow {a b : Word} (h : a.ssubOverflow b = true) :
    (a - b).msb = !decide (a.toInt < b.toInt) := by
  rw [← cmpFlags_v, cmpFlags_v_eq_signs, Bool.and_eq_true, bne_iff_ne, bne_iff_ne] at h
  obtain ⟨signs, result⟩ := h
  rw [toInt_lt_of_signs_ne signs]
  exact Bool.eq_not_of_ne result

/-- The true signed order, for all operands. -/
theorem toInt_lt_eq (a b : Word) : decide (a.toInt < b.toInt) = ((a - b).msb != a.ssubOverflow b) := by
  cases h : a.ssubOverflow b with
  | false => rw [sub_msb_of_not_overflow h, Bool.bne_false]
  | true => rw [sub_msb_of_overflow h, Bool.bne_true, Bool.not_not]

/-! ## The conditions after a comparison (R149) -/

theorem condHolds_bgt_eq_not_ble (f : Flags) : condHolds .bgt f = (condHolds .ble f).map not := by
  simp [condHolds]

theorem condHolds_bls_eq_not_bhi (f : Flags) : condHolds .bls f = (condHolds .bhi f).map not := by
  simp [condHolds]

/-- What the negation of a condition says of the operands. -/
theorem condHolds_of_negation {c d : Cond} {f : Flags} {P Q : Prop} [Decidable P] [Decidable Q]
    (negation : condHolds d f = (condHolds c f).map not) (hc : condHolds c f = some (decide P)) (hq : ¬P ↔ Q) :
    condHolds d f = some (decide Q) := by
  rw [negation, hc, Option.map_some, ← decide_not, Option.some_inj, decide_eq_decide]
  exact hq

theorem condHolds_beq_cmpFlags (a b : Word) : condHolds .beq (cmpFlags a b) = some (decide (a = b)) :=
  congrArg some (cmpFlags_z a b)

theorem condHolds_bcs_cmpFlags (a b : Word) : condHolds .bcs (cmpFlags a b) = some (decide (b.toNat ≤ a.toNat)) :=
  congrArg some (cmpFlags_c a b)

theorem condHolds_bhi_cmpFlags (a b : Word) : condHolds .bhi (cmpFlags a b) = some (decide (b.toNat < a.toNat)) := by
  rw [condHolds, cmpFlags_c, cmpFlags_z, ← decide_not, ← Bool.decide_and]
  simp only [lt_iff_le_and_ne, ne_eq, BitVec.toNat_inj, eq_comm]

theorem condHolds_blt_of_not_overflow {a b : Word} (h : (cmpFlags a b).v = false) :
    condHolds .blt (cmpFlags a b) = some (decide (a.toInt < b.toInt)) := by
  rw [cmpFlags_v] at h
  rw [condHolds, cmpFlags_n, sub_msb_of_not_overflow h]

theorem condHolds_ble_of_not_overflow {a b : Word} (h : (cmpFlags a b).v = false) :
    condHolds .ble (cmpFlags a b) = some (decide (a.toInt ≤ b.toInt)) := by
  rw [cmpFlags_v] at h
  rw [condHolds, cmpFlags_n, cmpFlags_z, sub_msb_of_not_overflow h, ← Bool.decide_or]
  simp only [le_iff_lt_or_eq, BitVec.toInt_inj]

/-- Every listed condition holds of all flags clear, of all flags set, or (BHI, which wants C without Z) of C alone. -/
theorem exists_flags_condHolds {c : Cond} (h : c ≠ .reservedF) : ∃ f, condHolds c f = some true := by
  cases c with
  | b | bne | bgt | bge | bcc | bpl | bvc => exact ⟨⟨false, false, false, false⟩, rfl⟩
  | beq | blt | ble | bcs | bmi | bvs | bls => exact ⟨⟨true, true, true, true⟩, rfl⟩
  | bhi => exact ⟨⟨false, false, true, false⟩, rfl⟩
  | reservedF => exact absurd rfl h

/-- No condition is the signed order: 0x7FFF - (-1) overflows to a negative difference, 1 - 0 and 0 - 0 are not negative, and in
none of the three is the first operand the lesser. -/
theorem exists_condHolds_ne_signed_lt (c : Cond) :
    ∃ a b : Word, condHolds c (cmpFlags a b) ≠ some (decide (a.toInt < b.toInt)) := by
  cases c with
  | b | bne | blt | ble | bcc | bmi | bvs | bls => exact ⟨0x7FFF, 0xFFFF, by decide⟩
  | bgt | bge | bcs | bpl | bvc | bhi => exact ⟨1, 0, by decide⟩
  | beq | reservedF => exact ⟨0, 0, by decide⟩

/-! ## What a comparison leaves (R129, R130) -/

/-- The frame of a comparison, once for both: `x` and `y` are its operands. -/
theorem givesFlags_of_compareWords {i : Instr} {x y : State → Word} (hexec : ∀ s, exec i s = compareWords (x s) (y s) s) :
    GivesFlags i (fun s => decide (x s = y s)) (fun s => (x s - y s).getLsbD 15)
      (fun s => decide ((y s).toNat ≤ (x s).toNat))
      (fun s => decide ((x s).toInt - (y s).toInt < -32768 ∨ 32767 < (x s).toInt - (y s).toInt)) := by
  intro s
  refine ⟨(s.setFlags (cmpFlags (x s) (y s))).advance, ?_, cmpFlags_z _ _, ?_, cmpFlags_c _ _, ?_, pcStepped_of_pc_eq rfl,
    fun _ => rfl, fun _ => rfl, ⟨fun _ => rfl, rfl⟩, fun _ => rfl⟩
  · rw [hexec, compareWords_eq]
  · exact (cmpFlags_n _ _).trans (BitVec.msb_eq_getLsbD_last _)
  · exact (cmpFlags_v _ _).trans (ssubOverflow_word _ _)

/-! ## The statements -/

/-- Settles O43: the sum is exact and its low half is the difference, so each flag of the formula is its gloss. -/
theorem cmpFlagsMeaning : Obligations.CmpFlagsMeaning := by
  intro a b t
  refine ⟨?_, ?_, cmpFlags_c_eq_sum a b, ?_, ?_, ?_, ?_⟩
  · rw [cmpFlags_z, decide_eq_decide, ← sub_toNat_eq_sum, ← sub_eq_zero, ← BitVec.toNat_inj]
    rfl
  · rw [cmpFlags_n, BitVec.msb_eq_decide, sub_toNat_eq_sum]
  · simp only [cmpFlags_v_eq_signs, cmpFlags_n, bne_eq, beq_eq_decide, ne_eq, decide_not]
  · rw [cmpFlags_z, decide_eq_true_iff]
  · rw [cmpFlags_c, decide_eq_true_iff]
  · rw [cmpFlags_v, ssubOverflow_word, decide_eq_true_iff]

/-- Settles O44: BEQ, BCS, BHI, BLT and BLE from the flags they read, and each other condition as the negation of one of them. -/
theorem conditionsAfterCompare : Obligations.ConditionsAfterCompare := by
  refine ⟨fun f => ⟨rfl, rfl, condHolds_bgt_eq_not_ble f, rfl, rfl, rfl, condHolds_bls_eq_not_bhi f, rfl, rfl⟩,
    fun _ => exists_flags_condHolds, fun a b => ?_, exists_condHolds_ne_signed_lt⟩
  have beq := condHolds_beq_cmpFlags a b
  have bcs := condHolds_bcs_cmpFlags a b
  have bhi := condHolds_bhi_cmpFlags a b
  refine ⟨beq, condHolds_of_negation rfl beq Iff.rfl, bcs, condHolds_of_negation rfl bcs Nat.not_le, bhi,
    condHolds_of_negation (condHolds_bls_eq_not_bhi _) bhi Nat.not_lt, fun noOverflow => ?_, fun sameSign => ?_, ?_⟩
  · have blt := condHolds_blt_of_not_overflow noOverflow
    have ble := condHolds_ble_of_not_overflow noOverflow
    exact ⟨blt, ble, condHolds_of_negation (condHolds_bgt_eq_not_ble _) ble Int.not_le,
      condHolds_of_negation rfl blt Int.not_lt⟩
  · rw [cmpFlags_v, ssubOverflow_of_same_sign sameSign]
  · rw [cmpFlags_n, cmpFlags_v, toInt_lt_eq]

/-- Settles O42: both comparisons are `compareWords`. -/
theorem compareResults : Obligations.CompareResults := fun a b imm =>
  ⟨formatR_of_encode .cmp 0 a.num b.num rfl rfl rfl, givesFlags_of_compareWords fun _ => rfl,
    formatI_of_encode .cmpI 0 a.num imm rfl rfl rfl, givesFlags_of_compareWords fun _ => rfl⟩

end Sys2Proof.CompareRules
end

section
/-! The branches (43_compare_branch.md R133 to R152): the words of formats J and JI, the frame of an instruction that is
`branchTo`, and from these every row by its condition. -/

namespace Sys2Proof.BranchRules

open Sys2Proof.Machine Sys2Proof.Claims Sys2Proof.StateRules Sys2Proof.EncodingRules Sys2Proof.ResultRules

/-! ## Formats J and JI (30_encoding.md R58, R59, R62, R63) -/

theorem formatJ_of_encode {i : Instr} {c : Cond} {r : Reg} (he : encode i = packJ c r) :
    FormatJ i c.code.toNat (number r) := by
  refine ⟨?_, ignoresUnused 0x44⟩
  rw [he, packJ_toNat]
  rfl

theorem formatJI_of_encode {i : Instr} {c : Cond} {imm : Word} (he : encode i = packJI c imm) :
    FormatJI i c.code.toNat imm.toNat := by
  rw [FormatJI, he, packJI_toNat]
  rfl

theorem formatJ_branchOf (c : Cond) (r : Reg) : FormatJ (branchOf c r) c.code.toNat (number r) :=
  formatJ_of_encode (encode_branchOf c r)

theorem formatJI_branchImmOf (c : Cond) (imm : Word) : FormatJI (branchImmOf c imm) c.code.toNat imm.toNat :=
  formatJI_of_encode (encode_branchImmOf c imm)

/-! ## Taken or not (R150 to R152) -/

/-- The frame of a branch, once for all of them: `holds` is the rule's formula for the condition, which rules out code 0xF. -/
theorem branches_of_branchTo {i : Instr} {c : Cond} {target : State → Word} {holds : Flags → Bool}
    (hexec : ∀ s, exec i s = branchTo c (target s) s) (hholds : ∀ f, condHolds c f = some (holds f)) :
    Branches i holds target := by
  intro s
  rcases branchTo_cases c (target s) s with ⟨hc, hb⟩ | ⟨hc, hb⟩ | ⟨hc, -⟩
  · have taken : holds s.flags = true := Option.some_inj.mp ((hholds s.flags).symm.trans hc)
    exact ⟨_, (hexec s).trans hb, fun _ => rfl, fun fails => absurd (taken.symm.trans fails) nofun, rfl, fun _ => rfl,
      fun _ => rfl, ⟨fun _ => rfl, rfl⟩, fun _ => rfl⟩
  · have fails : holds s.flags = false := Option.some_inj.mp ((hholds s.flags).symm.trans hc)
    exact ⟨_, (hexec s).trans hb, fun taken => absurd (taken.symm.trans fails) nofun, fun _ => pcStepped_of_pc_eq rfl, rfl,
      fun _ => rfl, fun _ => rfl, ⟨fun _ => rfl, rfl⟩, fun _ => rfl⟩
  · exact nomatch (hholds s.flags).symm.trans ((condHolds_none_iff c s.flags).mpr hc)

theorem branches_branchOf (c : Cond) (r : Reg) {holds : Flags → Bool} (hholds : ∀ f, condHolds c f = some (holds f)) :
    Branches (branchOf c r) holds fun s => s.reg r :=
  branches_of_branchTo (exec_branchOf c r) hholds

theorem branches_branchImmOf (c : Cond) (imm : Word) {holds : Flags → Bool}
    (hholds : ∀ f, condHolds c f = some (holds f)) : Branches (branchImmOf c imm) holds fun _ => imm :=
  branches_of_branchTo (exec_branchImmOf c imm) hholds

/-! ## BRANCH and BRANCH_I, with any code (R148, R150, R151) -/

theorem exec_branch (c : Cond) (r : Reg) (s : State) : exec (.branch c r) s = branchTo c (s.reg r) s := rfl

theorem exec_branchI (c : Cond) (imm : Word) (s : State) : exec (.branchI c imm) s = branchTo c imm s := rfl

theorem branchTo_reservedF (target : Word) (s : State) :
    branchTo .reservedF target s = .fault (.reservedCondition s.pc s.fetch) := rfl

theorem condHolds_eq_some {c : Cond} (h : c ≠ .reservedF) (f : Flags) : condHolds c f = some (condHolds c f == some true) := by
  cases hc : condHolds c f with
  | none => exact absurd ((condHolds_none_iff c f).mp hc) h
  | some holds => cases holds <;> rfl

/-! ## The statements -/

/-- Settles O49: every code but 0xF says whether the branch is taken, and `branchTo` faults on 0xF. -/
theorem genericBranchResults : Obligations.GenericBranchResults := by
  refine ⟨fun c r imm => ⟨formatJ_of_encode rfl, formatJI_of_encode rfl, ?_, fun h =>
      ⟨branches_of_branchTo (exec_branch c r) (condHolds_eq_some h),
        branches_of_branchTo (exec_branchI c imm) (condHolds_eq_some h)⟩⟩,
    fun s hop hpad => step_of_pad (o := .branch) rfl hop hpad, fun s hop hpad => step_of_pad (o := .branchI) rfl hop hpad⟩
  rintro rfl s
  exact ⟨branchTo_reservedF (s.reg r) s, branchTo_reservedF imm s⟩

/-- Settles O45: each row is `branchOf` its condition, whose formula is that of the rule. -/
theorem registerBranchesOnEqualAndOrder : Obligations.RegisterBranchesOnEqualAndOrder := fun r =>
  ⟨formatJ_branchOf .b r, branches_branchOf .b r fun _ => rfl,
    formatJ_branchOf .beq r, branches_branchOf .beq r fun _ => rfl,
    formatJ_branchOf .bne r, branches_branchOf .bne r fun _ => rfl,
    formatJ_branchOf .blt r, branches_branchOf .blt r fun _ => rfl,
    formatJ_branchOf .ble r, branches_branchOf .ble r fun _ => rfl,
    formatJ_branchOf .bgt r, branches_branchOf .bgt r fun _ => rfl,
    formatJ_branchOf .bge r, branches_branchOf .bge r fun _ => rfl⟩

/-- Settles O46: as O45, for the other eight conditions. -/
theorem registerBranchesOnCarrySignOverflow : Obligations.RegisterBranchesOnCarrySignOverflow := fun r =>
  ⟨formatJ_branchOf .bcs r, branches_branchOf .bcs r fun _ => rfl,
    formatJ_branchOf .bcc r, branches_branchOf .bcc r fun _ => rfl,
    formatJ_branchOf .bmi r, branches_branchOf .bmi r fun _ => rfl,
    formatJ_branchOf .bpl r, branches_branchOf .bpl r fun _ => rfl,
    formatJ_branchOf .bvs r, branches_branchOf .bvs r fun _ => rfl,
    formatJ_branchOf .bvc r, branches_branchOf .bvc r fun _ => rfl,
    formatJ_branchOf .bhi r, branches_branchOf .bhi r fun _ => rfl,
    formatJ_branchOf .bls r, branches_branchOf .bls r fun _ => rfl⟩

/-- Settles O47: each row is `branchImmOf` its condition, whose formula is that of the rule. -/
theorem immediateBranchesOnEqualAndOrder : Obligations.ImmediateBranchesOnEqualAndOrder := fun imm =>
  ⟨formatJI_branchImmOf .b imm, branches_branchImmOf .b imm fun _ => rfl,
    formatJI_branchImmOf .beq imm, branches_branchImmOf .beq imm fun _ => rfl,
    formatJI_branchImmOf .bne imm, branches_branchImmOf .bne imm fun _ => rfl,
    formatJI_branchImmOf .blt imm, branches_branchImmOf .blt imm fun _ => rfl,
    formatJI_branchImmOf .ble imm, branches_branchImmOf .ble imm fun _ => rfl,
    formatJI_branchImmOf .bgt imm, branches_branchImmOf .bgt imm fun _ => rfl,
    formatJI_branchImmOf .bge imm, branches_branchImmOf .bge imm fun _ => rfl⟩

/-- Settles O48: as O47, for the other eight conditions. -/
theorem immediateBranchesOnCarrySignOverflow : Obligations.ImmediateBranchesOnCarrySignOverflow := fun imm =>
  ⟨formatJI_branchImmOf .bcs imm, branches_branchImmOf .bcs imm fun _ => rfl,
    formatJI_branchImmOf .bcc imm, branches_branchImmOf .bcc imm fun _ => rfl,
    formatJI_branchImmOf .bmi imm, branches_branchImmOf .bmi imm fun _ => rfl,
    formatJI_branchImmOf .bpl imm, branches_branchImmOf .bpl imm fun _ => rfl,
    formatJI_branchImmOf .bvs imm, branches_branchImmOf .bvs imm fun _ => rfl,
    formatJI_branchImmOf .bvc imm, branches_branchImmOf .bvc imm fun _ => rfl,
    formatJI_branchImmOf .bhi imm, branches_branchImmOf .bhi imm fun _ => rfl,
    formatJI_branchImmOf .bls imm, branches_branchImmOf .bls imm fun _ => rfl⟩

end Sys2Proof.BranchRules
end

section
/-! The loads and stores (44_memory_ops.md R153 to R158): an address that names no word faults, and the frames of an instruction
that is `loadWord` and of one that is `storeWord`. -/

namespace Sys2Proof.LoadStoreRules

open Sys2Proof.Machine Sys2Proof.Claims Sys2Proof.StateRules Sys2Proof.MemoryRules Sys2Proof.ResultRules

/-! ## Addresses that name no word (20_memory.md R37) -/

theorem loadWord_of_ge (d : Reg) {ea : Word} (h : 256 ≤ ea.toNat) (s : State) :
    loadWord d ea s = .fault (.addressOutOfRange s.pc s.fetch ea) := by
  rcases loadWord_cases d ea s with ⟨hlt, -⟩ | ⟨-, hl⟩
  · omega
  · exact hl

theorem storeWord_of_ge {ea : Word} (h : 256 ≤ ea.toNat) (v : Word) (s : State) :
    storeWord ea v s = .fault (.addressOutOfRange s.pc s.fetch ea) := by
  rcases storeWord_cases ea v s with ⟨hlt, -⟩ | ⟨-, hm⟩
  · omega
  · exact hm

/-! ## One word loaded, one word stored (R155 to R158) -/

theorem exec_writeI (a : Reg) (imm : Word) (s : State) : exec (.writeI a imm) s = storeWord imm (s.reg a) s := rfl

/-- The frame of a load, once for both: the address is that of the old state, also where the instruction writes over the
register it came from. -/
theorem loads_of_loadWord {i : Instr} {d : Reg} {ea : State → Word} (hexec : ∀ s, exec i s = loadWord d (ea s) s) :
    Loads i d ea := by
  intro s
  refine ⟨fun inRange => ?_, fun outOfRange => (hexec s).trans (loadWord_of_ge d outOfRange s)⟩
  refine ⟨_, (hexec s).trans (loadWord_of_lt d inRange s), ?_, fun r hr => ?_, pcStepped_of_pc_eq rfl, rfl, fun _ => rfl,
    ⟨fun _ => rfl, rfl⟩, fun _ => rfl⟩
  · rw [State.advance_reg, State.setReg_reg, if_pos rfl]
  · rw [State.advance_reg, State.setReg_reg, if_neg hr]

/-- The frame of a store, once for both. -/
theorem stores_of_storeWord {i : Instr} {ea value : State → Word} (hexec : ∀ s, exec i s = storeWord (ea s) (value s) s) :
    Stores i ea value := by
  intro s
  refine ⟨fun inRange => ?_, fun outOfRange => (hexec s).trans (storeWord_of_ge outOfRange (value s) s)⟩
  refine ⟨_, (hexec s).trans (storeWord_of_lt inRange (value s) s), ?_, fun k hk => ?_, pcStepped_of_pc_eq rfl, rfl,
    fun _ => rfl, ⟨fun _ => rfl, rfl⟩, fun _ => rfl⟩
  · rw [State.advance_mem, State.setMem_mem, Memory.read_write, if_pos rfl]
  · rw [State.advance_mem, State.setMem_mem, Memory.read_write, if_neg hk]

/-! ## The statements -/

/-- Settles O50: both loads are `loadWord`, at the register the B field selects or at the immediate. -/
theorem readResults : Obligations.ReadResults := fun d b imm =>
  ⟨formatR_of_encode .read d.num 0 b.num rfl rfl rfl, loads_of_loadWord (exec_read d b),
    formatI_of_encode .readI d.num 0 imm rfl rfl rfl, loads_of_loadWord (exec_readI d imm)⟩

/-- Settles O51: both stores are `storeWord` of the register the A field selects. -/
theorem writeResults : Obligations.WriteResults := fun a b imm =>
  ⟨formatR_of_encode .write 0 a.num b.num rfl rfl rfl, stores_of_storeWord (exec_write a b),
    formatI_of_encode .writeI 0 a.num imm rfl rfl rfl, stores_of_storeWord (exec_writeI a imm)⟩

end Sys2Proof.LoadStoreRules
end

section
/-! The print instructions (45_print.md R159 to R163): all four are `printCell`, so each is one ScnWrite and a step of the pc; what
is left to each is its position and the cell it puts there. -/

namespace Sys2Proof.PrintRules

open Sys2Proof.Machine Sys2Proof.Claims Sys2Proof.StateRules Sys2Proof.ResultRules

/-! ## One ScnWrite (20_memory.md R46) -/

theorem setScn_advance_scn_read_self (s : State) (pos : Word) (cell : ScnCell) :
    (s.setScn pos cell).advance.scn.read pos.toNat = some cell := by
  rw [State.advance_scn, State.setScn_scn, Screen.read_write, if_pos rfl]

theorem setScn_advance_scn_read_of_ne (s : State) {pos : Word} (cell : ScnCell) {k : Nat} (h : k ≠ pos.toNat) :
    (s.setScn pos cell).advance.scn.read k = s.scn.read k := by
  rw [State.advance_scn, State.setScn_scn, Screen.read_write, if_neg h]

/-- The frame of a print instruction, once for all four. -/
theorem prints_of_printCell {i : Instr} {pos : State → Word} {kind : ScnKind} {value : State → Word}
    (hexec : ∀ s, exec i s = printCell (pos s) kind (value s) s) : Prints i pos kind value := fun s =>
  ⟨(s.setScn (pos s) ⟨kind, value s⟩).advance, (hexec s).trans (printCell_eq ..), setScn_advance_scn_read_self ..,
    fun _ hk => setScn_advance_scn_read_of_ne s _ hk, rfl, pcStepped_of_pc_eq rfl, rfl, fun _ => rfl, fun _ => rfl,
    fun _ => rfl⟩

/-! ## The four meanings (R160 to R163); `BitVec.ofNat 16 c.toNat` is zext_16 (00_scope.md R8) -/

theorem exec_printReg (a b : Reg) (s : State) : exec (.printReg a b) s = printCell (s.reg b) .value (s.reg a) s := rfl

theorem exec_printRegI (a : Reg) (imm : Word) (s : State) : exec (.printRegI a imm) s = printCell imm .value (s.reg a) s := rfl

theorem exec_printCns (b : Reg) (c : Byte) (s : State) :
    exec (.printCns b c) s = printCell (s.reg b) .char (BitVec.ofNat 16 c.toNat) s := by
  rw [BitVec.ofNat_toNat]
  rfl

theorem exec_printCnsI (x c : Byte) (s : State) :
    exec (.printCnsI x c) s = printCell (BitVec.ofNat 16 x.toNat) .char (BitVec.ofNat 16 c.toNat) s := by
  rw [BitVec.ofNat_toNat, BitVec.ofNat_toNat]
  rfl

/-! ## The words of the two constant prints (R162, R163) -/

/-- PRINT_CNS is the one word of format R with a CONST field (R66), so `FormatR` does not say it. -/
theorem encode_printCns_toNat (b : Reg) (c : Byte) :
    (encode (.printCns b c)).toNat = 0x4C + number b * 2 ^ 16 + c.toNat * 2 ^ 24 := by
  have packed : encode (.printCns b c) = packR .printCns 0 0 b.num c := rfl
  rw [packed, packR_toNat]
  rfl

theorem formatI_printCnsI (x c : Byte) : FormatI 0x4D (.printCnsI x c) 0 0 (c.toNat * 256 + x.toNat) := by
  have halves : (constX c x).toNat = c.toNat * 256 + x.toNat := (constX_toNat c x).trans (Nat.add_comm ..)
  rw [← halves]
  exact formatI_of_encode .printCnsI 0 0 (constX c x) rfl rfl rfl

/-! ## The statements -/

/-- Settles O24: of the updates in `Next`, only `State.setScn` reaches the screen and the list, and it is that of the prints. -/
theorem printsWriteScreenOnce : Obligations.PrintsWriteScreenOnce := by
  intro s t h
  cases next_of_step h with
  | print op =>
    exact ⟨fun _ => ⟨setScn_advance_scn_read_self .., fun _ hk => setScn_advance_scn_read_of_ne s _ hk, rfl,
      pcStepped_of_pc_eq rfl, rfl, fun _ => rfl, fun _ => rfl⟩, fun hn => (hn op).elim⟩
  | result op | compare op | taken op | notTaken op | store op =>
    exact ⟨fun isPrint => by bv_omega, fun _ => ⟨fun _ => rfl, rfl⟩⟩

/-- Settles O54: both are `printCell` of the register the A field selects. -/
theorem printRegisterResults : Obligations.PrintRegisterResults := fun a b imm =>
  ⟨formatR_of_encode .printReg 0 a.num b.num rfl rfl rfl, prints_of_printCell (exec_printReg a b),
    formatI_of_encode .printRegI 0 a.num imm rfl rfl rfl, prints_of_printCell (exec_printRegI a imm)⟩

/-- Settles O55: both are `printCell` of CONST, with the position in the register B selects or in the low byte of the immediate. -/
theorem printConstantResults : Obligations.PrintConstantResults := fun b x c =>
  ⟨encode_printCns_toNat b c, ignoresUnused 0x4C, fun _ hop hpad => step_of_pad (o := .printCns) rfl hop hpad,
    prints_of_printCell (exec_printCns b c), formatI_printCnsI x c, prints_of_printCell (exec_printCnsI x c)⟩

end Sys2Proof.PrintRules
end

section
/-! The faults of 60_exceptions.md R165 to R172: a step raises a fault exactly under that fault's own condition (`Raises`), and
every other step completes. The four statements on one fault each read their condition off `step_eq_fault_iff`. -/

namespace Sys2Proof.FaultRules

open Sys2Proof.Machine Sys2Proof.Claims Sys2Proof.StateRules Sys2Proof.RomRules Sys2Proof.ResultRules
open Sys2Proof.BranchRules Sys2Proof.LoadStoreRules

/-! ## The defined opcodes as bytes (30_encoding.md R69, R71, R72) -/

theorem defined_byte {o : Opcode} (h : o.reserved = false) : Defined o.byte := by
  cases o with
  | aluNul0E | aluNul0F | aluNul0EI | aluNul0FI => cases h
  | _ => unfold Defined; decide

/-- The rows of R83 cover the defined opcodes. -/
theorem exists_row_covering {op : Byte} (h : Defined op) : ∃ p ∈ romTable, p.1 ≤ op ∧ op ≤ p.2.1 := by
  simp only [romTable, List.mem_cons, List.not_mem_nil, or_false, exists_eq_or_imp, exists_eq_left]
  unfold Defined at h
  bv_omega

theorem defined_iff (op : Byte) : Defined op ↔ ∃ o : Opcode, o.byte = op ∧ o.reserved = false := by
  constructor
  · intro h
    obtain ⟨p, hp, hl, hu⟩ := exists_row_covering h
    obtain ⟨o, ho, hr, -⟩ := (romBitsOf_eq_some_iff op p.2.2).mp (romBitsOf_of_mem_row hp hl hu)
    exact ⟨o, ho, hr⟩
  · rintro ⟨o, rfl, hr⟩
    exact defined_byte hr

theorem not_defined_iff (op : Byte) :
    ¬ Defined op ↔ (0x20 ≤ op ∧ op ≤ 0x3F) ∨ 0x4E ≤ op ∨ op = 0x0E ∨ op = 0x0F ∨ op = 0x1E ∨ op = 0x1F := by
  unfold Defined
  bv_omega

/-- The zero mask of R74 is the mask of the pad bits of the opcode's format. -/
theorem zeroMask_byte {o : Opcode} (h : o.reserved = false) : zeroMask o.byte = o.format.padMask := by
  cases o with
  | aluNul0E | aluNul0F | aluNul0EI | aluNul0FI => cases h
  | _ => rfl

theorem condField_eq_reservedF_iff (w : InstrWord) : condField w = .reservedF ↔ w.extractLsb' 8 4 = 0xF := by
  constructor
  · intro h
    exact (Cond.code_ofCode _).symm.trans (congrArg Cond.code h)
  · intro h
    exact congrArg Cond.ofCode h

/-! ## The step on a word that decodes -/

section
variable {s : State}

theorem step_of_opcode {o : Opcode} (defined : o.reserved = false) (hop : opcodeByte s.fetch = o.byte)
    (pad : s.fetch &&& zeroMask (opcodeByte s.fetch) = 0) : step s = exec (o.instr s.fetch) s := by
  rw [hop, zeroMask_byte defined] at pad
  exact step_of_decode_ok ((decode_eq_ok_iff s.fetch _).mpr ⟨o, hop.symm, .inr pad, rfl⟩)

theorem step_of_branch (hop : opcodeByte s.fetch = 0x44 ∨ opcodeByte s.fetch = 0x45)
    (pad : s.fetch &&& zeroMask (opcodeByte s.fetch) = 0) : step s = branchTo (condField s.fetch) (secondOperand s) s := by
  rcases hop with hop | hop
  · rw [step_of_opcode (o := .branch) rfl hop pad, secondOperand_of_even (by rw [hop]; rfl)]
    exact exec_branchOf _ _ s
  · rw [step_of_opcode (o := .branchI) rfl hop pad, secondOperand_of_odd (by rw [hop]; rfl)]
    exact exec_branchImmOf _ _ s

theorem step_of_load (hop : opcodeByte s.fetch = 0x46 ∨ opcodeByte s.fetch = 0x47)
    (pad : s.fetch &&& zeroMask (opcodeByte s.fetch) = 0) :
    step s = loadWord (dstField s.fetch) (effectiveAddress s) s := by
  rcases hop with hop | hop
  · rw [step_of_opcode (o := .read) rfl hop pad, effectiveAddress, hop]
    rfl
  · rw [step_of_opcode (o := .readI) rfl hop pad, effectiveAddress, hop]
    rfl

theorem step_of_store (hop : opcodeByte s.fetch = 0x48 ∨ opcodeByte s.fetch = 0x49)
    (pad : s.fetch &&& zeroMask (opcodeByte s.fetch) = 0) :
    step s = storeWord (effectiveAddress s) (s.reg (aField s.fetch)) s := by
  rcases hop with hop | hop
  · rw [step_of_opcode (o := .write) rfl hop pad, effectiveAddress, hop]
    rfl
  · rw [step_of_opcode (o := .writeI) rfl hop pad, effectiveAddress, hop]
    rfl

end

/-! ## What raises each fault -/

/-- The faults of a step from `s`, each under the condition of its rule. ScreenOutOfRange is not among them (R170). -/
inductive Raises (s : State) : Fault → Prop
  /-- R166. -/
  | illegal (undefined : ¬ Defined (opcodeByte s.fetch)) : Raises s (.illegalInstruction s.pc s.fetch)
  /-- R167. -/
  | encoding (defined : Defined (opcodeByte s.fetch)) (pad : s.fetch &&& zeroMask (opcodeByte s.fetch) ≠ 0) :
      Raises s (.reservedEncoding s.pc s.fetch)
  /-- R168. -/
  | condition (op : opcodeByte s.fetch = 0x44 ∨ opcodeByte s.fetch = 0x45)
      (pad : s.fetch &&& zeroMask (opcodeByte s.fetch) = 0) (code : condField s.fetch = .reservedF) :
      Raises s (.reservedCondition s.pc s.fetch)
  /-- R169. -/
  | address (op : 0x46 ≤ opcodeByte s.fetch ∧ opcodeByte s.fetch ≤ 0x49)
      (pad : s.fetch &&& zeroMask (opcodeByte s.fetch) = 0) (out : 256 ≤ (effectiveAddress s).toNat) :
      Raises s (.addressOutOfRange s.pc s.fetch (effectiveAddress s))

/-- The condition of a fault is enough to raise it. -/
theorem step_of_raises {s : State} {f : Fault} (h : Raises s f) : step s = .fault f := by
  cases h with
  | illegal undefined =>
    refine (step_eq_illegal_iff s).mpr fun o ho => ?_
    by_contra hr
    exact undefined ((defined_iff _).mpr ⟨o, ho, eq_false_of_ne_true hr⟩)
  | encoding defined pad =>
    obtain ⟨o, ho, hr⟩ := (defined_iff _).mp defined
    rw [← ho, zeroMask_byte hr] at pad
    exact step_of_pad hr ho.symm pad
  | condition op pad code => rw [step_of_branch op pad, code, branchTo_reservedF]
  | address op pad out =>
    have isLoadOrStore : (opcodeByte s.fetch = 0x46 ∨ opcodeByte s.fetch = 0x47) ∨
        (opcodeByte s.fetch = 0x48 ∨ opcodeByte s.fetch = 0x49) := by bv_omega
    rcases isLoadOrStore with op | op
    · rw [step_of_load op pad, loadWord_of_ge _ out]
    · rw [step_of_store op pad, storeWord_of_ge out]

section
variable {s : State}

theorem branch_completes_or_raises (op : opcodeByte s.fetch = 0x44 ∨ opcodeByte s.fetch = 0x45)
    (pad : s.fetch &&& zeroMask (opcodeByte s.fetch) = 0) : (∃ t, step s = .next t) ∨ ∃ f, Raises s f := by
  rcases branchTo_cases (condField s.fetch) (secondOperand s) s with ⟨-, h⟩ | ⟨-, h⟩ | ⟨code, -⟩
  · exact .inl ⟨_, (step_of_branch op pad).trans h⟩
  · exact .inl ⟨_, (step_of_branch op pad).trans h⟩
  · exact .inr ⟨_, .condition op pad code⟩

theorem load_completes_or_raises (op : opcodeByte s.fetch = 0x46 ∨ opcodeByte s.fetch = 0x47)
    (pad : s.fetch &&& zeroMask (opcodeByte s.fetch) = 0) : (∃ t, step s = .next t) ∨ ∃ f, Raises s f := by
  rcases loadWord_cases (dstField s.fetch) (effectiveAddress s) s with ⟨-, h⟩ | ⟨out, -⟩
  · exact .inl ⟨_, (step_of_load op pad).trans h⟩
  · exact .inr ⟨_, .address (by bv_omega) pad out⟩

theorem store_completes_or_raises (op : opcodeByte s.fetch = 0x48 ∨ opcodeByte s.fetch = 0x49)
    (pad : s.fetch &&& zeroMask (opcodeByte s.fetch) = 0) : (∃ t, step s = .next t) ∨ ∃ f, Raises s f := by
  rcases storeWord_cases (effectiveAddress s) (s.reg (aField s.fetch)) s with ⟨-, h⟩ | ⟨out, -⟩
  · exact .inl ⟨_, (step_of_store op pad).trans h⟩
  · exact .inr ⟨_, .address (by bv_omega) pad out⟩

end

/-- A step completes or meets the condition of a fault: once the opcode is defined and the pad bits are clear, only a branch, a load
and a store can still fault. -/
theorem step_completes_or_raises (s : State) : (∃ t, step s = .next t) ∨ ∃ f, Raises s f := by
  by_cases defined : Defined (opcodeByte s.fetch)
  case neg => exact .inr ⟨_, .illegal defined⟩
  by_cases pad : s.fetch &&& zeroMask (opcodeByte s.fetch) = 0
  case neg => exact .inr ⟨_, .encoding defined pad⟩
  obtain ⟨o, ho, hr⟩ := (defined_iff _).mp defined
  have run := step_of_opcode hr ho.symm pad
  cases o with
  | aluNul0E | aluNul0F | aluNul0EI | aluNul0FI => cases hr
  | branch => exact branch_completes_or_raises (.inl ho.symm) pad
  | branchI => exact branch_completes_or_raises (.inr ho.symm) pad
  | read => exact load_completes_or_raises (.inl ho.symm) pad
  | readI => exact load_completes_or_raises (.inr ho.symm) pad
  | write => exact store_completes_or_raises (.inl ho.symm) pad
  | writeI => exact store_completes_or_raises (.inr ho.symm) pad
  | printReg | printRegI | printCns | printCnsI => exact .inl ⟨_, run.trans (printCell_eq ..)⟩
  | _ => exact .inl ⟨_, run⟩

/-- The inversion lemma of a step that faults; a step has one answer, so no two conditions meet (R172). -/
theorem step_eq_fault_iff (s : State) (f : Fault) : step s = .fault f ↔ Raises s f := by
  refine ⟨fun h => ?_, step_of_raises⟩
  rcases step_completes_or_raises s with ⟨t, ht⟩ | ⟨g, hg⟩
  · cases ht.symm.trans h
  · cases (step_of_raises hg).symm.trans h
    exact hg

/-- A run stops at its first fault, however many steps it was given. -/
theorem run_succ_of_fault (M : Host.Core) {s : M.State} {f : M.Fault} (h : M.step s = .fault f) (n : Nat) :
    M.run (n + 1) s = .fault f := by
  rw [Host.Core.run, h]

/-! ## The statements -/

/-- Settles O8: a step that does not complete raises one of the faults of `Raises`, and the run stops there. -/
theorem stepEndsInNextOrFault : Obligations.StepEndsInNextOrFault := by
  intro s
  refine (step_completes_or_raises s).imp_right fun ⟨f, raised⟩ => ?_
  have hf := step_of_raises raised
  refine ⟨?_, f, fun n => ⟨run_succ_of_fault Sys2Proof.core hf n, hf⟩⟩
  cases raised with
  | illegal => exact .inl hf
  | encoding => exact .inr (.inl hf)
  | condition => exact .inr (.inr (.inl hf))
  | address => exact .inr (.inr (.inr (.inl ⟨_, hf⟩)))

/-- Settles O9: the unassigned and the reserved opcodes are those that are not defined. -/
theorem illegalInstructionExactly : Obligations.IllegalInstructionExactly := by
  intro s p w
  rw [step_eq_fault_iff, ← not_defined_iff]
  constructor
  · intro h
    cases h with
    | illegal undefined => exact ⟨rfl, rfl, undefined⟩
  · rintro ⟨rfl, rfl, undefined⟩
    exact .illegal undefined

/-- Settles O10: the condition of `Raises.encoding`. -/
theorem reservedEncodingExactly : Obligations.ReservedEncodingExactly := by
  intro s p w
  rw [step_eq_fault_iff]
  constructor
  · intro h
    cases h with
    | encoding defined pad => exact ⟨rfl, rfl, defined, pad⟩
  · rintro ⟨rfl, rfl, defined, pad⟩
    exact .encoding defined pad

/-- Settles O11: the condition of `Raises.condition`, the code as four bits of the word. -/
theorem reservedConditionExactly : Obligations.ReservedConditionExactly := by
  intro s p w
  rw [step_eq_fault_iff, ← condField_eq_reservedF_iff]
  constructor
  · intro h
    cases h with
    | condition op pad code => exact ⟨rfl, rfl, op, pad, code⟩
  · rintro ⟨rfl, rfl, op, pad, code⟩
    exact .condition op pad code

/-- Settles O12: the condition of `Raises.address`. -/
theorem addressOutOfRangeExactly : Obligations.AddressOutOfRangeExactly := by
  intro s p w addr
  rw [step_eq_fault_iff]
  constructor
  · intro h
    cases h with
    | address op pad out => exact ⟨rfl, rfl, op.1, op.2, pad, rfl, out⟩
  · rintro ⟨rfl, rfl, lower, upper, pad, rfl, out⟩
    exact .address ⟨lower, upper⟩ pad out

/-- Settles O13: no constructor of `Raises` is a ScreenOutOfRange. -/
theorem screenOutOfRangeNever : Obligations.ScreenOutOfRangeNever := by
  refine ⟨rfl, fun s p w pos h => ?_⟩
  cases (step_eq_fault_iff s _).mp h

end Sys2Proof.FaultRules
end

section
/-! The rules of 70_reset_and_hazards.md: the branch to itself that ends a run, and where the loader puts the words of an image. -/

namespace Sys2Proof.ResetRules

open Sys2Proof.Machine Sys2Proof.StateRules Sys2Proof.EncodingRules

/-! ## The end of a run (R186) -/

/-- The word that ends a run is the canonical word of the unconditional branch to that address. -/
theorem encode_bImm (k : Word) : encode (.bImm k) = (0x45 : InstrWord) ||| k.setWidth 32 <<< 16 := rfl

theorem exec_bImm (k : Word) (s : State) : exec (.bImm k) s = .next (s.setPc k) := rfl

theorem finished_iff (s : State) : finished s = true ↔ s.fetch = encode (.bImm s.pc) :=
  beq_iff_eq

/-- The branch goes to its own address, so its step is `State.setPc` with the pc it finds (43_compare_branch.md R151). -/
theorem step_of_finished {s : State} (ended : finished s = true) : step s = .next s := by
  have decoded : decode s.fetch = .ok (.bImm s.pc) := by
    rw [(finished_iff s).mp ended]
    exact decodeInvertsEncode _ rfl
  rw [step_of_decode_ok decoded, exec_bImm, State.setPc_self]

/-- A state that a step leaves as it is stays so under any number of steps. -/
theorem run_of_step_self (M : Host.Core) {s : M.State} (h : M.step s = .next s) (n : Nat) : M.run n s = .next s := by
  induction n with
  | zero => rfl
  | succ n ih => rw [Host.Core.run, h]; exact ih

/-- Settles O25: the step from the end-of-run word is `step_of_finished`, and a run repeats it. -/
theorem finishedRunStaysFixed : Obligations.FinishedRunStaysFixed := by
  intro s atEnd
  have ended : finished s = true := (finished_iff s).mpr atEnd
  exact ⟨ended, run_of_step_self Sys2Proof.core (step_of_finished ended)⟩

/-! ## The canonical IMEM of a list of words (R184) -/

theorem imemFrom_cons (j : Nat) (w : InstrWord) (rest : List InstrWord) :
    imemFrom j (w :: rest) = if w = Config.imemFiller then imemFrom (j + 1) rest else (j, w) :: imemFrom (j + 1) rest := rfl

theorem instrMemory_read_cons (j : Nat) (w : InstrWord) (m : InstrMemory) (a : Nat) :
    InstrMemory.read ((j, w) :: m) a = if j = a then w else m.read a := by
  unfold InstrMemory.read
  rw [Cells.lookup_cons]
  split <;> rfl

/-- What is listed: words other than the filler, each at one of the addresses given out. -/
theorem of_mem_imemFrom {j : Nat} {words : List InstrWord} {e : Nat × InstrWord} (h : e ∈ imemFrom j words) :
    j ≤ e.1 ∧ e.1 < j + words.length ∧ e.2 ≠ Config.imemFiller := by
  induction words generalizing j with
  | nil => cases h
  | cons w rest ih =>
    have later (h : e ∈ imemFrom (j + 1) rest) : j ≤ e.1 ∧ e.1 < j + (w :: rest).length ∧ e.2 ≠ Config.imemFiller := by
      obtain ⟨lower, upper, word⟩ := ih h
      rw [List.length_cons]
      exact ⟨by omega, by omega, word⟩
    rw [imemFrom_cons] at h
    split at h
    · exact later h
    · next listed =>
      rcases List.mem_cons.mp h with rfl | h
      · exact ⟨le_rfl, by simp, listed⟩
      · exact later h

/-- Below the first address given out nothing is listed. -/
theorem imemFrom_read_of_lt {j a : Nat} (h : a < j) (words : List InstrWord) :
    (imemFrom j words).read a = Config.imemFiller := by
  induction words generalizing j with
  | nil => rfl
  | cons w rest ih =>
    have below : (imemFrom (j + 1) rest).read a = Config.imemFiller := ih (by omega)
    rw [imemFrom_cons]
    split
    · exact below
    · rw [instrMemory_read_cons, if_neg (by omega), below]

/-- Whether or not the first word is listed, it is read at its address, and the words after it from the next address on. -/
theorem imemFrom_cons_read (j : Nat) (w : InstrWord) (rest : List InstrWord) (a : Nat) :
    (imemFrom j (w :: rest)).read a = if j = a then w else (imemFrom (j + 1) rest).read a := by
  rw [imemFrom_cons]
  split
  · next filler =>
    split
    · next here => rw [filler, imemFrom_read_of_lt (by omega)]
    · rfl
  · exact instrMemory_read_cons ..

/-- Word `k` is at the `k`-th address given out, the filler at every address after the last. -/
theorem imemFrom_read (j : Nat) (words : List InstrWord) (k : Nat) :
    (imemFrom j words).read (j + k) = words.getD k Config.imemFiller := by
  induction words generalizing j k with
  | nil => rfl
  | cons w rest ih =>
    rw [imemFrom_cons_read]
    cases k with
    | zero => exact if_pos (Nat.add_zero j).symm
    | succ k => rw [if_neg (by omega), List.getD_cons_succ, Nat.add_comm k, ← Nat.add_assoc, ih]

theorem imemFrom_rising (j : Nat) (words : List InstrWord) : Cells.rising (imemFrom j words) = true := by
  rw [Cells.rising_iff_pairwise]
  induction words generalizing j with
  | nil => exact .nil
  | cons w rest ih =>
    rw [imemFrom_cons]
    split
    · exact ih (j + 1)
    · exact List.pairwise_cons.mpr ⟨fun _ he => (of_mem_imemFrom he).1, ih (j + 1)⟩

theorem imemFrom_wf {j : Nat} {words : List InstrWord} (fits : j + words.length ≤ 65536) : (imemFrom j words).wf = true := by
  simp only [InstrMemory.wf, Bool.and_eq_true, Cells.wfBelow_iff, List.all_eq_true, bne_iff_ne]
  refine ⟨⟨imemFrom_rising j words, fun e he => ?_⟩, fun e he => ?_⟩
  · obtain ⟨-, upper, -⟩ := of_mem_imemFrom he
    exact upper.trans_le fits
  · obtain ⟨-, -, word⟩ := of_mem_imemFrom he
    exact word

/-! ## The loader (R184, R190) -/

theorem loadImage_of_edition {img : Image} (edition : img.edition = Config.edition) (fits : img.words.length ≤ 65536)
    (s : State) : loadImage img s = .next { s with imem := imemFrom 0 img.words } := by
  rw [loadImage, if_neg (not_not.mpr edition), if_pos fits]

theorem loadImage_of_other_edition {img : Image} (other : img.edition ≠ Config.edition) (s : State) :
    loadImage img s = .refused (.wrongEdition img.edition) :=
  if_pos other

theorem wf_withImem {s : State} (hs : s.wf = true) {m : InstrMemory} (hm : m.wf = true) : { s with imem := m }.wf = true := by
  obtain ⟨mem, scn, -⟩ := (State.wf_iff s).mp hs
  exact (State.wf_iff _).mpr ⟨mem, scn, hm⟩

/-- Settles O26: the image is read back by `imemFrom_read` from address 0, and it is canonical by `imemFrom_wf`. -/
theorem loaderPlacesTheImage : Obligations.LoaderPlacesTheImage := by
  intro img s
  refine ⟨fun edition fits => ⟨_, loadImage_of_edition edition fits s, fun k => ?_, rfl, fun hs => ?_⟩,
    fun other => loadImage_of_other_edition other s⟩
  · rw [← imemFrom_read 0 img.words k, Nat.zero_add]
  · exact wf_withImem hs (imemFrom_wf (by rwa [Nat.zero_add]))

end Sys2Proof.ResetRules
end

section
/-! The sparse spaces in canonical form are determined by their contents (the model's choice of form, notes/assumptions/3.md, 4.md,
6.md and 11.md). A rising list is determined by its entries, and each entry is what is read at its address. -/

namespace Sys2Proof.SpaceRules

open Sys2Proof.Machine

variable {α : Type}

/-! ## Rising lists -/

theorem lt_of_mem_of_rising {j k : Nat} {u v : α} {rest : Cells α} (h : Cells.rising ((j, u) :: rest) = true)
    (listed : (k, v) ∈ rest) : j < k := by
  rw [Cells.rising_iff_pairwise] at h
  exact List.rel_of_pairwise_cons h listed

/-- The lookup finds every entry of a rising list: no entry hides a later one. -/
theorem mem_iff_lookup {m : Cells α} (h : Cells.rising m = true) (k : Nat) (v : α) :
    (k, v) ∈ m ↔ Cells.lookup m k = some v := by
  induction m with
  | nil => simp
  | cons e rest ih =>
    obtain ⟨j, u⟩ := e
    have listed_later : (k, v) ∈ rest ↔ Cells.lookup rest k = some v := ih ((Cells.rising_cons_iff j u rest).mp h).2
    rw [Cells.lookup_cons, List.mem_cons, Prod.mk.injEq]
    split
    · next here =>
      have not_later : (k, v) ∉ rest := fun listed => (lt_of_mem_of_rising h listed).ne here
      simp [here, not_later, eq_comm]
    · next elsewhere => simp [listed_later, Ne.symm elsewhere]

theorem eq_of_mem_iff {m n : Cells α} (hm : Cells.rising m = true) (hn : Cells.rising n = true)
    (same : ∀ k v, (k, v) ∈ m ↔ (k, v) ∈ n) : m = n := by
  rw [Cells.rising_iff_pairwise] at hm hn
  have : Std.Irrefl fun a b : Nat × α => a.1 < b.1 := ⟨fun a => lt_irrefl a.1⟩
  have : Std.Antisymm fun a b : Nat × α => a.1 < b.1 := ⟨fun _ _ ab ba => absurd ba ab.asymm⟩
  exact hm.eq_of_mem_iff hn fun e => same e.1 e.2

theorem eq_of_lookup_eq {m n : Cells α} (hm : Cells.rising m = true) (hn : Cells.rising n = true)
    (same : ∀ k, Cells.lookup m k = Cells.lookup n k) : m = n :=
  eq_of_mem_iff hm hn fun k v => by rw [mem_iff_lookup hm, mem_iff_lookup hn, same]

theorem rising_of_wfBelow {bound : Nat} {m : Cells α} (h : Cells.wfBelow bound m = true) : Cells.rising m = true :=
  ((Cells.wfBelow_iff bound m).mp h).1

/-! ## IMEM -/

theorem imem_wf_iff (m : InstrMemory) :
    m.wf = true ↔ Cells.wfBelow Config.imemWords m = true ∧ ∀ e ∈ m, e.2 ≠ Config.imemFiller := by
  simp [InstrMemory.wf]

theorem imem_rising {m : InstrMemory} (h : m.wf = true) : Cells.rising m = true :=
  rising_of_wfBelow ((imem_wf_iff m).mp h).1

/-- A canonical IMEM lists what it reads, except the filler (R44): a listed filler would read as an unlisted address does. -/
theorem mem_imem_iff_read {m : InstrMemory} (h : m.wf = true) (k : Nat) (w : InstrWord) :
    (k, w) ∈ m ↔ m.read k = w ∧ w ≠ Config.imemFiller := by
  obtain ⟨-, no_filler⟩ := (imem_wf_iff m).mp h
  rw [InstrMemory.read]
  constructor
  · intro listed
    rw [(mem_iff_lookup (imem_rising h) k w).mp listed]
    exact ⟨rfl, no_filler _ listed⟩
  · rintro ⟨reads, not_filler⟩
    rw [mem_iff_lookup (imem_rising h)]
    cases found : Cells.lookup m k with
    | none =>
      rw [found] at reads
      exact absurd reads.symm not_filler
    | some v =>
      rw [found] at reads
      exact congrArg some reads

/-- Settles O16: equal lookups, which are the reads of SCN, give equal lists (`eq_of_lookup_eq`); in IMEM the reads give the entries
(`mem_imem_iff_read`). -/
theorem equalSpacesAreEqualData : Obligations.EqualSpacesAreEqualData := by
  refine ⟨fun m n hm hn same => ?mem, fun c d hc hd same => ?scn, fun m n hm hn same => ?imem⟩
  case mem => exact eq_of_lookup_eq (rising_of_wfBelow hm) (rising_of_wfBelow hn) same
  case scn => exact eq_of_lookup_eq (rising_of_wfBelow hc) (rising_of_wfBelow hd) same
  case imem =>
    exact eq_of_mem_iff (imem_rising hm) (imem_rising hn) fun k w => by
      rw [mem_imem_iff_read hm, mem_imem_iff_read hn, same]

end Sys2Proof.SpaceRules
end

section
/-! The words of the usage examples (95_test_vectors.md section 1). -/

namespace Sys2Proof.SampleRules

open Sys2Proof.Machine

theorem decode_of_encode_eq {i : Instr} {w : InstrWord} (word : encode i = w) (named : i.wellFormed = true) :
    decode w = .ok i := by
  rw [← word]
  exact EncodingRules.decodeInvertsEncode i named

/-- Settles O4: each word is the canonical word of its instruction, whose decoding is O1. -/
theorem sampleWordsDecode : Obligations.SampleWordsDecode := by
  refine ⟨?_, ?_, ?_, ?_, ?_, ?_, ?_, ?_⟩ <;>
    exact decode_of_encode_eq (by decide) rfl

end Sys2Proof.SampleRules
end
